-- ==== Sys2Proof/Word.lean ====
section
/-! DEFINITION. The machine's words: the widths that spec/00_scope.md R6 and spec/10_state.md R32 fix. -/

namespace Sys2Proof

/-- A control register or command word, 32 bits (00_scope.md R6, 30_encoding.md R80). -/
abbrev Word := BitVec 32

/-- A glyph width or height field, 16 bits (00_scope.md R6). -/
abbrev Half := BitVec 16

/-- One element of the IN stream, and the grid byte `CB` (00_scope.md R6, 10_state.md R32). -/
abbrev Byte := BitVec 8

/-- One element of the OUT stream: a 6-bit beat (30_encoding.md R85). -/
abbrev Beat := BitVec 6

end Sys2Proof
end

