-- ==== Sys2Proof/Syntax.lean ====
section
/-! DEFINITION. What the agents can say to the machine: the command words (spec/opcode_table.json), the named
registers, a host access, an event of the total order, and a line of the host notation. -/

namespace Sys2Proof

/-- The commands, one constructor per row of spec/opcode_table.json (30_encoding.md R81). No command has an
operand field (30_encoding.md R83). -/
inductive Instr where
  /-- `NOP`, word 0x00000000 (42_control.md R170). -/
  | nop
  /-- `MEASURE`, word 0x00000001 (40_geometry.md R110). -/
  | measure
  /-- `RASTER`, word 0x00000002 (41_raster.md R130). -/
  | raster
  /-- `ABORT`, word 0x00000003 (42_control.md R171). -/
  | abort
  deriving DecidableEq, Repr

/-- The named registers of the control window (10_state.md R22). -/
inductive Reg where
  | geom | cmd | status | lgeom | size | rowbytes | dim | incount | outcount | pos
  deriving DecidableEq, Repr

/-- What a host access does (20_memory.md R51). A fetch from the window is treated as a read there. -/
inductive AccessKind where
  | read
  | fetch
  | write (v : Word)
  deriving DecidableEq, Repr

/-- One host access to the control window: a byte offset from `FBU_BASE`, a width in bits, and what it does
(20_memory.md R51). -/
structure Access where
  off   : Nat
  width : Nat
  kind  : AccessKind
  deriving DecidableEq, Repr

/-- One atomic event of the total order of 20_memory.md R62. -/
inductive Event where
  /-- A host access at an offset of the control window (20_memory.md R51). -/
  | host (a : Access)
  /-- A host access at an address of the platform: `a.off` is the address (20_memory.md R67). -/
  | bus (a : Access)
  /-- The FBU agent's turn: it takes its FETCH or EMIT step if that is enabled (41_raster.md R138, R139). -/
  | fbu
  /-- The source offers a byte on IN (20_memory.md R56); no event takes an offer back (log entry 19). -/
  | offer (b : Byte)
  /-- The sink becomes ready or not ready (20_memory.md R59). -/
  | sink (ready : Bool)
  /-- The reset event (70_reset_and_hazards.md R230). -/
  | reset
  deriving DecidableEq, Repr, Inhabited

/-- One line of a host program (30_encoding.md R89). `run n` is RUN with `n` turns of the FBU. `sinkCheck` and
`comment` are the lines `SINK -> ...` and `; text`, which observe and do nothing. -/
inductive HostLine where
  | wr (r : Reg) (v : Word)
  | rd (r : Reg)
  | cmd (i : Instr)
  | glyph (w h : Int)
  | src (bytes : List Byte)
  | run (turns : Nat)
  | sinkCheck
  | reset
  | comment
  deriving DecidableEq, Repr

end Sys2Proof
end

