-- ==== Sys2Proof/WellFormed.lean ====
section
/-! DEFINITION. Which terms of the syntax the spec allows: the checks that claims take as hypotheses. -/

namespace Sys2Proof

/-- Every command is well formed: none has an operand (30_encoding.md R83). -/
def Instr.wf : Instr → Bool
  | .nop => true
  | .measure => true
  | .raster => true
  | .abort => true

/-- The accesses that 20_memory.md R51 allows: 32 bits wide, aligned, inside the window. -/
def Access.wf (a : Access) : Bool :=
  a.width == 32 && (a.off % 4 == 0 && decide (a.off ≤ 0x3C))

/-- An event is well formed when its window access is. An access at a platform address is checked only once its
window offset is known, so it is well formed as it stands. -/
def Event.wf : Event → Bool
  | .host a => a.wf
  | .bus _ => true
  | .fbu => true
  | .offer _ => true
  | .sink _ => true
  | .reset => true

/-- The integers that `GLYPH` takes: `[-32768, 32767]` (30_encoding.md R89). -/
def glyphOperandWf (v : Int) : Bool :=
  decide (-32768 ≤ v) && decide (v ≤ 32767)

/-- A host line is well formed when the operands of `GLYPH` are in range (30_encoding.md R89). -/
def HostLine.wf : HostLine → Bool
  | .glyph w h => glyphOperandWf w && glyphOperandWf h
  | .wr _ _ => true
  | .rd _ => true
  | .cmd i => i.wf
  | .src _ => true
  | .run _ => true
  | .sinkCheck => true
  | .reset => true
  | .comment => true

end Sys2Proof
end

