-- ==== Sys2Proof/Decode.lean ====
section
/-! DEFINITION. The command word: decoder, total over all words and all bytes, rejecting by name
(30_encoding.md R84), and the encoder written from the same table (30_encoding.md R81). -/

namespace Sys2Proof

/-- Why a command is not decoded. -/
inductive DecodeReject where
  /-- A reserved word (30_encoding.md R82). -/
  | reserved (w : Word)
  /-- Fewer than the four bytes that a command word has (30_encoding.md R80). -/
  | truncated (n : Nat)
  deriving DecidableEq, Repr

/-- Field `OP`, bits [3:0] (30_encoding.md R80). -/
def opField (w : Word) : BitVec 4 := w.extractLsb' 0 4

/-- Field `RSVD`, bits [31:4] (30_encoding.md R80). -/
def rsvdField (w : Word) : BitVec 28 := w.extractLsb' 4 28

/-- The opcode map over `OP` alone (30_encoding.md R84, the case lines). -/
def opcodeOf (op : BitVec 4) : Option Instr :=
  match op.toNat with
  | 0 => some .nop
  | 1 => some .measure
  | 2 => some .raster
  | 3 => some .abort
  | _ => none

/-- `Decode(word)` of 30_encoding.md R84. -/
def decode (w : Word) : Except DecodeReject Instr :=
  if rsvdField w = 0 then
    match opcodeOf (opField w) with
    | some i => .ok i
    | none => .error (.reserved w)
  else .error (.reserved w)

/-- The four byte lanes of a word put together: byte `k` is bits `[8k+7:8k]` (20_memory.md R54). -/
def wordOfLanes (b0 b1 b2 b3 : Byte) : Word := b3 ++ b2 ++ b1 ++ b0

/-- Byte lane `k` of a word: bits `[8k+7:8k]` (20_memory.md R54). -/
def byteLane (k : Nat) (w : Word) : Byte := w.extractLsb' (8 * k) 8

/-- Decode the command word at the front of a byte list, lane 0 first, and give the bytes after it
(30_encoding.md R80, 20_memory.md R54, log entry 16). -/
def decodeBytes : List Byte → Except DecodeReject (Instr × List Byte)
  | b0 :: b1 :: b2 :: b3 :: rest =>
    match decode (wordOfLanes b0 b1 b2 b3) with
    | .ok i => .ok (i, rest)
    | .error r => .error r
  | short => .error (.truncated short.length)

/-- The word of a command (30_encoding.md R81). -/
def encode : Instr → Word
  | .nop => 0x00000000#32
  | .measure => 0x00000001#32
  | .raster => 0x00000002#32
  | .abort => 0x00000003#32

/-- The bytes of a command word, lane 0 first (20_memory.md R54). -/
def encodeBytes (i : Instr) : List Byte :=
  [byteLane 0 (encode i), byteLane 1 (encode i), byteLane 2 (encode i), byteLane 3 (encode i)]

/-- The word that the low `nbits` bits of `w` are, bits above them zero: bit 0 is the least significant bit
(00_scope.md R7). -/
def tableWord (nbits w : Nat) : Word := BitVec.ofNat 32 (w % 2 ^ nbits)

/-- What the decoder reads from the opcode table's word `w` of `nbits` bits: its bytes, lane 0 first, given to
`decodeBytes`. A number of more than 32 bits is no command word (30_encoding.md R80). -/
def decodeTableWord (nbits w : Nat) : Option Instr :=
  if w % 2 ^ nbits < 2 ^ 32 then
    let word := tableWord nbits w
    match decodeBytes [byteLane 0 word, byteLane 1 word, byteLane 2 word, byteLane 3 word] with
    | .ok (i, _) => some i
    | .error _ => none
  else none

end Sys2Proof
end

