-- ==== Sys2Proof/Config.lean ====
section
/-! DEFINITION. What the platform fixes and what the spec leaves free: the base of the control window and the events
that no one has fixed. -/

namespace Sys2Proof

/-- Which 64-byte block of the platform's addresses the window is: OPEN (92_eei_decisions.md D26, log entry 6). -/
opaque Config.fbuBlock : Nat

/-- `FBU_BASE`, a multiple of 0x40 (20_memory.md R67, log entry 6). -/
def Config.fbuBase : Nat := 0x40 * Config.fbuBlock

/-- The `n`-th event that is not fixed beforehand: the host, the source, the sink, the FBU's turn or a reset, free
at every step (92_eei_decisions.md D35, 93_implementation_defined.md U7, log entry 2). -/
opaque Config.freeEvent : Nat → Event

end Sys2Proof
end

