-- ==== Sys2Proof/Machine/State.lean ====
section
/-! DEFINITION. The state of the machine, plain data: the FBU's stored elements (10_state.md R32, R34), the three
streams and signals around it (10_state.md R36), and the events still to come (20_memory.md R62). -/

namespace Sys2Proof.Machine

/-- `PHASE`: 3 never occurs (10_state.md R25, R32; 92_eei_decisions.md D37). -/
inductive Phase where
  | idle | fetch | emit
  deriving DecidableEq, Repr

/-- `ERRC`: the first command-error cause; 3 never occurs (10_state.md R25; 92_eei_decisions.md D37). -/
inductive ErrCause where
  | none | rsvd | busy
  deriving DecidableEq, Repr

/-- The FBU's stored state: every element of the table of 10_state.md R34. -/
structure Fbu where
  /-- `GEOM` (R23). -/
  geom     : Word
  /-- `LW`, the latched width (R26). -/
  lw       : Half
  /-- `LH`, the latched height (R26). -/
  lh       : Half
  /-- `PHASE` (R32). -/
  phase    : Phase
  /-- `DONE` (R25). -/
  done     : Bool
  /-- `ERRC` (R25). -/
  errc     : ErrCause
  /-- `Y`, the current grid row (R32). -/
  y        : BitVec 16
  /-- `XB`, the current byte column (R32). -/
  xb       : BitVec 12
  /-- `J`, the current bit within the byte (R32). -/
  j        : BitVec 3
  /-- `CB`, the grid byte being emitted (R32). -/
  cb       : Byte
  /-- `INCOUNT` (R28). -/
  incount  : BitVec 32
  /-- `OUTCOUNT` (R28). -/
  outcount : BitVec 32
  deriving DecidableEq, Repr

/-- The reset value of every stored element (10_state.md R34). -/
def Fbu.reset : Fbu where
  geom := 0
  lw := 0
  lh := 0
  phase := .idle
  done := false
  errc := .none
  y := 0
  xb := 0
  j := 0
  cb := 0
  incount := 0
  outcount := 0

/-- What the last host access answered (20_memory.md R51; the model's own record, log entry 4). -/
inductive Response where
  /-- No access has been made yet. -/
  | none
  /-- A write was taken. -/
  | written
  /-- A read returned this value. -/
  | data (v : Word)
  /-- `BusError(off, width)` (20_memory.md R51). -/
  | busError (off width : Nat)
  /-- The access did not reach the FBU: what the host sees is the platform's concern (20_memory.md R67, log
  entry 5). -/
  | notReached (addr : Nat)
  deriving DecidableEq, Repr

/-- The whole machine. -/
structure State where
  /-- The FBU's stored state. -/
  fbu       : Fbu
  /-- The bytes offered on IN and not yet popped, oldest first (20_memory.md R56); only a FETCH takes one away (log
  entry 19). -/
  inStream  : List Byte
  /-- The beats delivered on OUT, oldest first (20_memory.md R59, log entry 11). -/
  outStream : List Beat
  /-- `OutReady()` (20_memory.md R59, log entry 7). -/
  sinkReady : Bool
  /-- What the last host access answered. -/
  response  : Response
  /-- The events to come that are fixed, the next one first (20_memory.md R62, log entry 1). -/
  events    : List Event
  /-- How many free events have been drawn (log entry 2). -/
  draws     : Nat
  deriving DecidableEq, Repr

/-- The machine right after reset: the FBU as 10_state.md R34 says; nothing offered, delivered, answered or
fixed to come (DESIGN CHOICE, log entries 1, 2, 7 and 8). -/
def State.reset : State where
  fbu := Fbu.reset
  inStream := []
  outStream := []
  sinkReady := false
  response := .none
  events := []
  draws := 0

/-- Why the machine stops with a fault: it never does, "The FBU raises no exception, trap or fault"
(60_exceptions.md R200), so there is no constructor. -/
inductive Fault where
  deriving DecidableEq, Repr

/-- Why an instruction has no meaning. -/
inductive Refusal where
  /-- Raised by an arm of `exec` for an instruction without a meaning; safe. No arm raises it. -/
  | notModelled (mnemonic : String)
  deriving DecidableEq, Repr

/-- What one event ends in. -/
abbrev Outcome := Host.Outcome State Fault Refusal

end Sys2Proof.Machine
end

