-- ==== Sys2Proof/Machine/Operands.lean ====
section
/-! DEFINITION. The operands of MEASURE and RASTER and the geometry functions of the latched geometry
(40_geometry.md R100 to R108), exact on integers (R107). -/

namespace Sys2Proof.Machine

/-- `sext_16(v)`: the integer of a 16-bit two's complement pattern (00_scope.md R9). -/
def sext16 (v : Half) : Int :=
  if v.toNat < 0x8000 then (v.toNat : Int) else (v.toNat : Int) - 0x10000

/-- `ceil(a/b)` for `a ≥ 0`, `b > 0` (00_scope.md R8). -/
def ceilDiv (a b : Nat) : Nat := (a + b - 1) / b

/-- `round_up_to_N(v)` (00_scope.md R8). -/
def roundUp (n v : Nat) : Nat := n * ceilDiv v n

/-- Field WIDTH of GEOM, bits [15:0], which becomes `LW` (10_state.md R23, 30_encoding.md R83). -/
def geomWidth (g : Word) : Half := g.extractLsb' 0 16

/-- Field HEIGHT of GEOM, bits [31:16], which becomes `LH` (10_state.md R23, 30_encoding.md R83). -/
def geomHeight (g : Word) : Half := g.extractLsb' 16 16

/-- `EMPTY`: `w ≤ 0` or `h ≤ 0` (40_geometry.md R101). -/
def isEmpty (lw lh : Half) : Bool :=
  decide (sext16 lw ≤ 0) || decide (sext16 lh ≤ 0)

/-- The logical width as a count of columns; 0 for a negative width, where no rule uses it. -/
def logicalWidth (lw : Half) : Nat := (sext16 lw).toNat

/-- The logical height as a count of rows; 0 for a negative height, where no rule uses it. -/
def logicalHeight (lh : Half) : Nat := (sext16 lh).toNat

/-- `RB`: the bytes of one row (40_geometry.md R102). -/
def rowBytes (lw lh : Half) : Nat :=
  if isEmpty lw lh then 0 else ceilDiv (logicalWidth lw) 8

/-- `h * RB`: how many payload bytes are glyph rows (40_geometry.md R106). -/
def dataBytes (lw lh : Half) : Nat := logicalHeight lh * rowBytes lw lh

/-- `SIZE`: the payload length (40_geometry.md R103). -/
def payloadSize (lw lh : Half) : Nat :=
  if isEmpty lw lh then 0 else roundUp 4 (dataBytes lw lh)

/-- `W`: the raster width (40_geometry.md R104). -/
def rasterWidth (lw lh : Half) : Nat :=
  if isEmpty lw lh then 0 else roundUp 8 (logicalWidth lw)

/-- `H`: the raster height (40_geometry.md R105). -/
def rasterHeight (lw lh : Half) : Nat :=
  if isEmpty lw lh then 0 else roundUp 4 (logicalHeight lh)

/-- `H * RB`: the byte positions of the grid (40_geometry.md R106). -/
def gridBytes (lw lh : Half) : Nat := rasterHeight lw lh * rowBytes lw lh

/-- How many bytes of its source the glyph table decoder advances over one slot (40_geometry.md R108). -/
def slotStride (lw lh : Half) : Nat := 16 + payloadSize lw lh

/-- `BIDX = Y*RB + XB`: the index of the current grid byte (10_state.md R32). -/
def byteIndex (f : Fbu) : Nat := f.y.toNat * rowBytes f.lw f.lh + f.xb.toNat

/-- `x = 8*XB + J`: the column of the next pixel (10_state.md R29, 41_raster.md R139). -/
def columnOf (f : Fbu) : Nat := 8 * f.xb.toNat + f.j.toNat

end Sys2Proof.Machine
end

