-- ==== Sys2Proof/Machine/Flags.lean ====
section
/-! DEFINITION. Every flag: the fields of STATUS (10_state.md R25) and the flags of a pixel beat (30_encoding.md R85,
41_raster.md R134, R136). -/

namespace Sys2Proof.Machine

/-- The number of a phase (10_state.md R25). -/
def phaseCode : Phase → Nat
  | .idle => 0
  | .fetch => 1
  | .emit => 2

/-- The number of an error cause (10_state.md R25). -/
def errCode : ErrCause → Nat
  | .none => 0
  | .rsvd => 1
  | .busy => 2

/-- `BUSY`: `PHASE ≠ IDLE` (10_state.md R25). -/
def busyFlag (f : Fbu) : Bool := phaseCode f.phase != 0

/-- `EMPTY` of the latched geometry (10_state.md R25, 40_geometry.md R101). -/
def emptyFlag (f : Fbu) : Bool := isEmpty f.lw f.lh

/-- `CMDERR`: `ERRC ≠ 0` (10_state.md R25). -/
def cmdErrFlag (f : Fbu) : Bool := errCode f.errc != 0

/-- The STATUS word: BUSY [0], DONE [1], EMPTY [2], CMDERR [3], PHASE [5:4], ERRC [7:6], the rest 0
(10_state.md R25). -/
def statusWord (f : Fbu) : Word :=
  BitVec.ofNat 32
    ((busyFlag f).toNat + 2 * f.done.toNat + 4 * (emptyFlag f).toNat + 8 * (cmdErrFlag f).toNat
      + 16 * phaseCode f.phase + 64 * errCode f.errc)

/-- `CLS`, the class of a pixel's grid byte; 3 is never emitted (30_encoding.md R85, 92_eei_decisions.md D37). -/
inductive PixelClass where
  | data | fill | oob
  deriving DecidableEq, Repr

/-- The number of a class (30_encoding.md R85). -/
def classCode : PixelClass → Nat
  | .data => 0
  | .fill => 1
  | .oob => 2

/-- `Class(y, b)` (41_raster.md R134). -/
def pixelClass (lw lh : Half) (y b : Nat) : PixelClass :=
  if y < logicalHeight lh then .data
  else if b < payloadSize lw lh then .fill
  else .oob

/-- `EOR`: the last pixel of its row, `x = W - 1` (30_encoding.md R85). -/
def eorFlag (lw lh : Half) (x : Nat) : Bool := x + 1 == rasterWidth lw lh

/-- `EOG`: the last pixel of the grid (30_encoding.md R85). -/
def eogFlag (lw lh : Half) (x y : Nat) : Bool :=
  eorFlag lw lh x && y + 1 == rasterHeight lw lh

/-- `COLPAD`: the column is outside the logical width, `x ≥ w` (41_raster.md R136). -/
def colpadFlag (lw : Half) (x : Nat) : Bool := decide (sext16 lw ≤ (x : Int))

/-- The fields of a beat (30_encoding.md R85). -/
structure BeatFields where
  pix    : Bool
  cls    : PixelClass
  eor    : Bool
  eog    : Bool
  colpad : Bool
  deriving DecidableEq, Repr

/-- The beat value `PIX + 2*CLS + 8*EOR + 16*EOG + 32*COLPAD` (30_encoding.md R85). -/
def packBeat (b : BeatFields) : Beat :=
  BitVec.ofNat 6
    (b.pix.toNat + 2 * classCode b.cls + 8 * b.eor.toNat + 16 * b.eog.toNat + 32 * b.colpad.toNat)

/-- Bit `7 - j` of a grid byte: the pixel at position `j`, left to right (41_raster.md R133, R143). -/
def pixelBit (byte : Byte) (j : Nat) : Bool := byte.getLsbD (7 - j)

end Sys2Proof.Machine
end

