-- ==== Sys2Proof/Machine/Ops.lean ====
section
/-! DEFINITION. The operations the meanings share: updates of the FBU, the error indication (in place of taking an
exception: the FBU has no trap entry and no return, 60_exceptions.md R204), the window's registers, the streams,
reset, and the order of events. -/

namespace Sys2Proof.Machine

/-! ### Updates of the FBU's stored state -/

/-- A host write to GEOM (10_state.md R23). -/
def Fbu.writeGeom (v : Word) (f : Fbu) : Fbu := { f with geom := v }

/-- The latch that MEASURE and RASTER share: LW, LH from GEOM; counters, position and CB zeroed
(40_geometry.md R110, 41_raster.md R130). -/
def Fbu.latch (f : Fbu) : Fbu :=
  { f with
    lw := geomWidth f.geom
    lh := geomHeight f.geom
    incount := 0
    outcount := 0
    y := 0
    xb := 0
    j := 0
    cb := 0 }

/-- `DONE <- v`. -/
def Fbu.setDone (v : Bool) (f : Fbu) : Fbu := { f with done := v }

/-- `PHASE <- p`. -/
def Fbu.setPhase (p : Phase) (f : Fbu) : Fbu := { f with phase := p }

/-- `ERRC <- 0`. -/
def Fbu.clearError (f : Fbu) : Fbu := { f with errc := .none }

/-- Record a command error: only the first cause is kept (42_control.md R172, R173; 60_exceptions.md R200, R203). -/
def Fbu.recordError (c : ErrCause) (f : Fbu) : Fbu :=
  if f.errc = .none then { f with errc := c } else f

/-- The job is done: `PHASE <- IDLE`, `DONE <- 1` (41_raster.md R140). -/
def Fbu.complete (f : Fbu) : Fbu := { f with phase := .idle, done := true }

/-- A popped payload byte goes to CB: INCOUNT counts it and EMIT is next (41_raster.md R138). -/
def Fbu.loadPayload (p : Byte) (f : Fbu) : Fbu :=
  { f with cb := p, incount := f.incount + 1, phase := .emit }

/-- An out-of-payload slot: CB is 0x00, nothing is counted, EMIT is next (41_raster.md R135, R138). -/
def Fbu.loadSlot (f : Fbu) : Fbu := { f with cb := 0, phase := .emit }

/-- `OUTCOUNT <- OUTCOUNT + 1` (41_raster.md R139). -/
def Fbu.countBeat (f : Fbu) : Fbu := { f with outcount := f.outcount + 1 }

/-- The next bit of the same grid byte: `J <- J + 1` (41_raster.md R139). -/
def Fbu.nextBit (f : Fbu) : Fbu := { f with j := f.j + 1 }

/-- The next grid byte, of this row or the next one; Y is the updated row (41_raster.md R139). -/
def Fbu.nextByte (f : Fbu) : Fbu :=
  if f.xb.toNat + 1 < rowBytes f.lw f.lh then { f with j := 0, xb := f.xb + 1 }
  else { f with j := 0, xb := 0, y := f.y + 1 }

/-- After the last bit of a grid byte: the grid is done, or FETCH is next (41_raster.md R139, R140). -/
def Fbu.endByte (f : Fbu) : Fbu :=
  if f.y.toNat = rasterHeight f.lw f.lh then f.complete else f.setPhase .fetch

/-- What EMIT does to the FBU once its beat is delivered (41_raster.md R139). -/
def Fbu.afterBeat (f : Fbu) : Fbu :=
  if f.j.toNat < 7 then f.countBeat.nextBit else f.countBeat.nextByte.endByte

/-- The reset event: every stored element takes its reset value (70_reset_and_hazards.md R230, 10_state.md R34). -/
def Fbu.afterReset (_ : Fbu) : Fbu := Fbu.reset

/-! ### Updates of the machine -/

/-- The FBU is now `f`. -/
def State.withFbu (f : Fbu) (s : State) : State := { s with fbu := f }

/-- The host access is answered. -/
def State.respond (r : Response) (s : State) : State := { s with response := r }

/-- The events still to come. -/
def State.withEvents (es : List Event) (s : State) : State := { s with events := es }

/-- A free event has been drawn. -/
def State.countDraw (s : State) : State := { s with draws := s.draws + 1 }

/-- The source offers a byte, after those it offered before (20_memory.md R56). It stays offered until a FETCH pops it:
no event takes it back, nor discards it at the source (DESIGN CHOICE, unsafe: log entry 19). -/
def State.offer (b : Byte) (s : State) : State := { s with inStream := s.inStream ++ [b] }

/-- The sink becomes ready or not ready (20_memory.md R59). -/
def State.setSink (r : Bool) (s : State) : State := { s with sinkReady := r }

/-- `InPop()`: the offered byte and the machine without it; none where `InAvail()` is false (20_memory.md R56). -/
def State.inPop (s : State) : Option (Byte × State) :=
  match s.inStream with
  | [] => none
  | p :: rest => some (p, { s with inStream := rest })

/-- `OutPush(beat)`; none where `OutReady()` is false (20_memory.md R59). -/
def State.outPush (b : Beat) (s : State) : Option State :=
  if s.sinkReady then some { s with outStream := s.outStream ++ [b] } else none

/-- The reset event: the FBU is reset; what the source has offered stays with it, nothing is popped or delivered
(70_reset_and_hazards.md R230, log entry 9). -/
def State.resetEvent (s : State) : State := s.withFbu s.fbu.afterReset

/-! ### The control window -/

/-- The byte offset of a register (10_state.md R22). -/
def regOffset : Reg → Nat
  | .geom => 0x00
  | .cmd => 0x04
  | .status => 0x08
  | .lgeom => 0x0C
  | .size => 0x10
  | .rowbytes => 0x14
  | .dim => 0x18
  | .incount => 0x1C
  | .outcount => 0x20
  | .pos => 0x24

/-- The register at a byte offset; none at the reserved offsets (10_state.md R22, R30). -/
def regAt (off : Nat) : Option Reg :=
  match off with
  | 0x00 => some .geom
  | 0x04 => some .cmd
  | 0x08 => some .status
  | 0x0C => some .lgeom
  | 0x10 => some .size
  | 0x14 => some .rowbytes
  | 0x18 => some .dim
  | 0x1C => some .incount
  | 0x20 => some .outcount
  | 0x24 => some .pos
  | _ => none

/-- LGEOM: `{LH, LW}` (10_state.md R26). -/
def lgeomWord (f : Fbu) : Word := f.lh ++ f.lw

/-- DIM: `{H, W}` (10_state.md R27). -/
def dimWord (f : Fbu) : Word :=
  BitVec.ofNat 16 (rasterHeight f.lw f.lh) ++ BitVec.ofNat 16 (rasterWidth f.lw f.lh)

/-- POS: `{Y, 8*XB + J}` (10_state.md R29). -/
def posWord (f : Fbu) : Word := f.y ++ BitVec.ofNat 16 (columnOf f)

/-- The value a register reads as (10_state.md R23 to R29; CMD reads 0, R24). -/
def regValue (r : Reg) (f : Fbu) : Word :=
  match r with
  | .geom => f.geom
  | .cmd => 0
  | .status => statusWord f
  | .lgeom => lgeomWord f
  | .size => BitVec.ofNat 32 (payloadSize f.lw f.lh)
  | .rowbytes => BitVec.ofNat 32 (rowBytes f.lw f.lh)
  | .dim => dimWord f
  | .incount => f.incount
  | .outcount => f.outcount
  | .pos => posWord f

/-- `RegRead(off)`: a reserved offset reads 0 (10_state.md R30, 20_memory.md R52). -/
def regRead (off : Nat) (f : Fbu) : Word :=
  match regAt off with
  | some r => regValue r f
  | none => 0

/-- The access check of 20_memory.md R51. -/
def accessOk (a : Access) : Bool :=
  if a.width = 32 then if a.off % 4 = 0 then decide (a.off ≤ 0x3C) else false else false

/-- The window offset of a platform address, none outside `[FBU_BASE, FBU_BASE + 0x40)` (20_memory.md R67). -/
def windowOffset (addr : Nat) : Option Nat :=
  if Config.fbuBase ≤ addr ∧ addr < Config.fbuBase + 0x40 then some (addr - Config.fbuBase) else none

/-! ### The order of events -/

/-- The next event: the first one that is fixed, or else a free draw (20_memory.md R62, log entries 1 and 2). -/
def State.nextEvent (s : State) : Event :=
  match s.events with
  | e :: _ => e
  | [] => Config.freeEvent s.draws

/-- The machine once its next event has been taken off the order. -/
def State.takeEvent (s : State) : State :=
  match s.events with
  | _ :: rest => s.withEvents rest
  | [] => s.countDraw

end Sys2Proof.Machine
end

