-- ==== Sys2Proof/Machine/Assembler.lean ====
section
/-! DEFINITION. The host's side: the GEOM value of a record (20_memory.md R55) and the notation of host programs as
events (30_encoding.md R89, R90). -/

namespace Sys2Proof.Machine

/-- The 16-bit pattern of an integer: `zext_16(v mod 2^16)` (30_encoding.md R89). -/
def pattern16 (v : Int) : Half := BitVec.ofNat 16 (v % 0x10000).toNat

/-- The GEOM value that `GLYPH w, h` writes (30_encoding.md R89). -/
def glyphWord (w h : Int) : Word := pattern16 h ++ pattern16 w

/-- The GEOM value of a glyph record whose first four bytes are `r0 r1 r2 r3` (20_memory.md R55). That the record's
fields are little-endian is the spec's own reading of its source (log entry 20). -/
def recordGeom (r0 r1 r2 r3 : Byte) : Word := r3 ++ r2 ++ r1 ++ r0

/-- A 32-bit write to a register. -/
def writeEvent (r : Reg) (v : Word) : Event :=
  .host { off := regOffset r, width := 32, kind := .write v }

/-- A 32-bit read of a register. -/
def readEvent (r : Reg) : Event :=
  .host { off := regOffset r, width := 32, kind := .read }

/-- The events of a line of a host program (30_encoding.md R89, R90). -/
def lineEvents : HostLine → List Event
  | .wr r v => [writeEvent r v]
  | .rd r => [readEvent r]
  | .cmd i => [writeEvent .cmd (encode i)]
  | .glyph w h => [writeEvent .geom (glyphWord w h)]
  | .src bytes => bytes.map Event.offer
  | .run turns => .sink true :: List.replicate turns .fbu
  | .sinkCheck => []
  | .reset => [.reset]
  | .comment => []

/-- A host program as events. -/
def programEvents (p : List HostLine) : List Event := p.flatMap lineEvents

/-- The machine with a host program as what comes next. -/
def State.loadProgram (p : List HostLine) (s : State) : State :=
  s.withEvents (programEvents p ++ s.events)

end Sys2Proof.Machine
end

