-- ==== Sys2Proof/Machine/Control.lean ====
section
/-! DEFINITION. The control commands NOP and ABORT and the rejection of a reserved word (42_control.md R170 to R172). -/

namespace Sys2Proof.Machine

/-- NOP does nothing (42_control.md R170). -/
def execNop (s : State) : Host.Outcome State Fault Refusal := .next s

/-- ABORT ends any job and clears DONE and ERRC; all else is kept (42_control.md R171). -/
def execAbort (s : State) : Host.Outcome State Fault Refusal :=
  .next (s.withFbu ((s.fbu.setPhase .idle).setDone false).clearError)

/-- A reserved command word: only the cause RSVD is recorded (42_control.md R172). -/
def rejectReserved (s : State) : Host.Outcome State Fault Refusal :=
  .next (s.withFbu (s.fbu.recordError .rsvd))

end Sys2Proof.Machine
end

