-- ==== Sys2Proof/Machine/Geometry.lean ====
section
/-! DEFINITION. The padding decoder's command, MEASURE (40_geometry.md R110). -/

namespace Sys2Proof.Machine

/-- MEASURE: latch and DONE in IDLE (40_geometry.md R110), rejected as busy otherwise (42_control.md R173). -/
def execMeasure (s : State) : Host.Outcome State Fault Refusal :=
  if s.fbu.phase = .idle then .next (s.withFbu (s.fbu.latch.setDone true))
  else .next (s.withFbu (s.fbu.recordError .busy))

end Sys2Proof.Machine
end

