-- ==== Sys2Proof/Machine/Raster.lean ====
section
/-! DEFINITION. The unpacker: the RASTER command (41_raster.md R130) and the sequencer's steps FETCH and EMIT
(41_raster.md R138 to R140). -/

namespace Sys2Proof.Machine

/-- The FBU after an accepted RASTER: an empty glyph is done at once, any other goes to FETCH (41_raster.md R130). -/
def Fbu.startRaster (f : Fbu) : Fbu :=
  if payloadSize f.latch.lw f.latch.lh = 0 then (f.latch.setDone false).setDone true
  else (f.latch.setDone false).setPhase .fetch

/-- RASTER: start a job in IDLE (41_raster.md R130), rejected as busy otherwise (42_control.md R173). -/
def execRaster (s : State) : Host.Outcome State Fault Refusal :=
  if s.fbu.phase = .idle then .next (s.withFbu s.fbu.startRaster)
  else .next (s.withFbu (s.fbu.recordError .busy))

/-- FETCH; none while it waits for a byte (41_raster.md R138). -/
def fetchStep (s : State) : Option State :=
  if byteIndex s.fbu < payloadSize s.fbu.lw s.fbu.lh then
    match s.inPop with
    | some (p, t) => some (t.withFbu (s.fbu.loadPayload p))
    | none => none
  else some (s.withFbu s.fbu.loadSlot)

/-- The beat that EMIT delivers (41_raster.md R139). -/
def emitBeat (f : Fbu) : Beat :=
  packBeat
    { pix := pixelBit f.cb f.j.toNat
      cls := pixelClass f.lw f.lh f.y.toNat (byteIndex f)
      eor := eorFlag f.lw f.lh (columnOf f)
      eog := eogFlag f.lw f.lh (columnOf f) f.y.toNat
      colpad := colpadFlag f.lw (columnOf f) }

/-- EMIT; none while the sink is not ready (41_raster.md R139, R140). -/
def emitStep (s : State) : Option State :=
  match s.outPush (emitBeat s.fbu) with
  | some t => some (t.withFbu s.fbu.afterBeat)
  | none => none

/-- The step of the FBU agent; none where no step is enabled: IDLE, or a wait (60_exceptions.md R209). -/
def fbuStep (s : State) : Option State :=
  match s.fbu.phase with
  | .idle => none
  | .fetch => fetchStep s
  | .emit => emitStep s

end Sys2Proof.Machine
end

