-- ==== Sys2Proof/Machine/Dispatch.lean ====
section
/-! DEFINITION. The meaning of every command, one arm per constructor of `Instr` (42_control.md R174). -/

namespace Sys2Proof.Machine

/-- Run one command (42_control.md R174, steps 2 to 5). -/
def exec (i : Instr) (s : State) : Host.Outcome State Fault Refusal :=
  match i with
  | .nop => Sys2Proof.Machine.execNop s
  | .measure => Sys2Proof.Machine.execMeasure s
  | .raster => Sys2Proof.Machine.execRaster s
  | .abort => Sys2Proof.Machine.execAbort s

end Sys2Proof.Machine
end

