-- ==== Sys2Proof/Machine/Events.lean ====
section
/-! DEFINITION. What each event of the total order does (20_memory.md R51, R52, R62, R67). -/

namespace Sys2Proof.Machine

/-- A write to CMD: decode, then reject or run, all in this one event (42_control.md R174). -/
def command (w : Word) (s : State) : Host.Outcome State Fault Refusal :=
  match decode w with
  | .error _ => rejectReserved s
  | .ok i => exec i s

/-- `RegWrite(off, v)`: GEOM and CMD take it, every other offset ignores it (10_state.md R23, R24; 20_memory.md
R52). -/
def regWrite (off : Nat) (v : Word) (s : State) : Host.Outcome State Fault Refusal :=
  match regAt off with
  | some .geom => .next (s.withFbu (s.fbu.writeGeom v))
  | some .cmd => command v s
  | _ => .next s

/-- `RegAccess`: a bus error has no other effect; a fetch is a read (20_memory.md R51). -/
def regAccess (a : Access) (s : State) : Host.Outcome State Fault Refusal :=
  if accessOk a then
    match a.kind with
    | .read => .next (s.respond (.data (regRead a.off s.fbu)))
    | .fetch => .next (s.respond (.data (regRead a.off s.fbu)))
    | .write v => regWrite a.off v (s.respond .written)
  else .next (s.respond (.busError a.off a.width))

/-- A host access at a platform address: inside the window it is an access at its offset, outside it does not reach
the FBU (20_memory.md R67, log entry 5). -/
def busAccess (a : Access) (s : State) : Host.Outcome State Fault Refusal :=
  match windowOffset a.off with
  | some off => regAccess { a with off := off } s
  | none => .next (s.respond (.notReached a.off))

/-- The FBU agent's turn: its step where one is enabled; where none is, it stays as it is (60_exceptions.md R209,
log entry 3). -/
def fbuTurn (s : State) : State :=
  match fbuStep s with
  | some t => t
  | none => s

/-- One event, all its effects at once (20_memory.md R62). -/
def handleEvent (e : Event) (s : State) : Host.Outcome State Fault Refusal :=
  match e with
  | .host a => regAccess a s
  | .bus a => busAccess a s
  | .fbu => .next (fbuTurn s)
  | .offer b => .next (s.offer b)
  | .sink r => .next (s.setSink r)
  | .reset => .next s.resetEvent

/-- The next event of the order, handled. -/
def nextStep (s : State) : Host.Outcome State Fault Refusal := handleEvent s.nextEvent s.takeEvent

/-- The host event that gives the FBU the command word `w` (30_encoding.md R80). -/
def commandEvent (w : Word) : Event :=
  .host { off := regOffset .cmd, width := 32, kind := .write w }

end Sys2Proof.Machine
end

