-- ==== Sys2Proof/Machine/Grid.lean ====
section
/-! DEFINITION. The grid as a pure function of the geometry and the payload (41_raster.md R131 to R137, R143) and the
beats of a whole job (41_raster.md R145). -/

namespace Sys2Proof.Machine

/-- `Byte(b)`: the payload byte, or 0x00 in an out-of-payload slot (41_raster.md R131, R135). -/
def gridByte (lw lh : Half) (payload : List Byte) (b : Nat) : Byte :=
  if b < payloadSize lw lh then payload.getD b 0 else 0

/-- `b(x, y)` (41_raster.md R131). -/
def gridIndex (lw lh : Half) (x y : Nat) : Nat := y * rowBytes lw lh + x / 8

/-- `Grid(x, y)` (41_raster.md R131, R133, R143). -/
def gridPixel (lw lh : Half) (payload : List Byte) (x y : Nat) : Bool :=
  (gridByte lw lh payload (gridIndex lw lh x y)).getLsbD (7 - x % 8)

/-- The column of the `n`-th beat (41_raster.md R137). -/
def beatColumn (lw lh : Half) (n : Nat) : Nat := n % rasterWidth lw lh

/-- The row of the `n`-th beat (41_raster.md R137). -/
def beatRow (lw lh : Half) (n : Nat) : Nat := n / rasterWidth lw lh

/-- How many beats a job has: `W * H` (41_raster.md R141). -/
def jobLength (lw lh : Half) : Nat := rasterWidth lw lh * rasterHeight lw lh

/-- The fields of the `n`-th beat of a job (41_raster.md R145). -/
def jobBeatFields (lw lh : Half) (payload : List Byte) (n : Nat) : BeatFields :=
  let x := beatColumn lw lh n
  let y := beatRow lw lh n
  { pix := gridPixel lw lh payload x y
    cls := pixelClass lw lh y (gridIndex lw lh x y)
    eor := x + 1 == rasterWidth lw lh
    eog := n + 1 == jobLength lw lh
    colpad := decide (sext16 lw ≤ (x : Int)) }

/-- The `n`-th beat of a job (41_raster.md R145). -/
def jobBeat (lw lh : Half) (payload : List Byte) (n : Nat) : Beat :=
  packBeat (jobBeatFields lw lh payload n)

/-- All beats of a job, in order (41_raster.md R137, R141, R145). -/
def jobBeats (lw lh : Half) (payload : List Byte) : List Beat :=
  (List.range (jobLength lw lh)).map (jobBeat lw lh payload)

end Sys2Proof.Machine
end

