-- ==== Sys2Proof/Machine/Step.lean ====
section
/-! DEFINITION. One step: the next event of the total order (20_memory.md R62). The FBU fetches no instructions
(20_memory.md R66): a command reaches it as a host write to CMD, and `withFetchWord` makes that write the next event. -/

namespace Sys2Proof.Machine

/-- One step of the whole system: one event (20_memory.md R62). -/
def step (s : State) : Host.Outcome State Fault Refusal := nextStep s

/-- `s` with the host's write of the command word `w` to CMD as the very next event (log entry 1). -/
def State.withFetchWord (s : State) (nbits w : Nat) : State :=
  s.withEvents (commandEvent (tableWord nbits w) :: s.events)

end Sys2Proof.Machine
end

