-- ==== Sys2Proof/Safety.lean ====
section
/-! DEFINITION. The terms in which claims are stated: the job invariant (10_state.md R28, R32, R33), which command an
event carries, waiting, and runs. -/

namespace Sys2Proof.Machine

/-! ### What an event carries -/

/-- The window access of an event, once a platform address is turned into an offset (20_memory.md R51, R67). -/
def windowAccess : Event → Option Access
  | .host a => some a
  | .bus a => (windowOffset a.off).map fun off => { a with off := off }
  | .fbu => none
  | .offer _ => none
  | .sink _ => none
  | .reset => none

/-- The value an access writes to the register `r`: only an allowed write at that register's offset does
(20_memory.md R51, R52). -/
def accessWrites (r : Reg) (a : Access) : Option Word :=
  match a.kind with
  | .write v => if a.wf && decide (a.off = regOffset r) then some v else none
  | .read => none
  | .fetch => none

/-- The value an event writes to GEOM. -/
def geomWritten (e : Event) : Option Word := (windowAccess e).bind (accessWrites .geom)

/-- The command word an event writes to CMD. -/
def commandWord (e : Event) : Option Word := (windowAccess e).bind (accessWrites .cmd)

/-- The event writes the command `i` to CMD. -/
def issues (i : Instr) (e : Event) : Prop := commandWord e = some (encode i)

/-- In this state the event is a MEASURE or RASTER that is accepted: the FBU is IDLE (42_control.md R174). -/
def accepted (s : State) (e : Event) : Prop :=
  s.fbu.phase = .idle ∧ (issues .measure e ∨ issues .raster e)

/-- In this state the event is a command that is rejected: a reserved word, or MEASURE or RASTER while busy
(42_control.md R172, R173). -/
def rejected (s : State) (e : Event) : Prop :=
  (∃ w r, commandWord e = some w ∧ decode w = .error r) ∨
    (s.fbu.phase ≠ .idle ∧ (issues .measure e ∨ issues .raster e))

/-- An event that neither ends a job nor starts one: no reset, no ABORT, no MEASURE, no RASTER. Reads, GEOM writes,
NOP, reserved words, offers, the sink and the FBU's turns all are. -/
def keepsJob (e : Event) : Prop :=
  e ≠ .reset ∧ ¬ issues .abort e ∧ ¬ issues .measure e ∧ ¬ issues .raster e

/-- The bytes that a list of events offers on IN, in order. -/
def offeredBy (es : List Event) : List Byte :=
  es.flatMap fun e => match e with
    | .offer b => [b]
    | _ => []

/-- How many turns a list of events gives the FBU. -/
def turnsIn (es : List Event) : Nat := es.countP (· == .fbu)

/-- A 32-bit write to this offset is taken and has no effect (20_memory.md R52). -/
def ignoresWrites (off : Nat) : Prop :=
  ∀ (s : State) (rest : List Event) (v : Word),
    s.events = .host { off := off, width := 32, kind := .write v } :: rest →
    step s = .next { s with events := rest, response := .written }

/-! ### Waiting -/

/-- FETCH waits: it needs a byte and none is offered (60_exceptions.md R209). -/
def waitsForByte (s : State) : Prop :=
  s.fbu.phase = .fetch ∧ byteIndex s.fbu < payloadSize s.fbu.lw s.fbu.lh ∧ s.inStream = []

/-- EMIT waits: the sink is not ready (60_exceptions.md R209). -/
def waitsForSink (s : State) : Prop := s.fbu.phase = .emit ∧ s.sinkReady = false

/-- A step of the FBU is enabled. -/
def fbuEnabled (s : State) : Prop := (fbuStep s).isSome = true

/-! ### The job invariant -/

/-- What holds of the FBU in every reachable state: the ranges of 10_state.md R28 and R32, the job invariants of R33,
what the registers are after a job has completed, and the zero byte of an out-of-payload slot (41_raster.md R135). -/
structure JobInv (f : Fbu) : Prop where
  /-- R33 item 1. -/
  row_in_grid : f.phase ≠ .idle → f.y.toNat < rasterHeight f.lw f.lh
  /-- R33 item 1. -/
  byte_in_row : f.phase ≠ .idle → f.xb.toNat < rowBytes f.lw f.lh
  /-- R33 item 2. -/
  beats_counted : f.phase ≠ .idle → f.outcount.toNat = 8 * byteIndex f + f.j.toNat
  /-- R33 item 3. -/
  fetch_first_bit : f.phase = .fetch → f.j = 0
  /-- R33 item 3. -/
  fetch_counted : f.phase = .fetch → f.incount.toNat = min (byteIndex f) (payloadSize f.lw f.lh)
  /-- R33 item 4. -/
  emit_counted : f.phase = .emit → f.incount.toNat = min (byteIndex f + 1) (payloadSize f.lw f.lh)
  /-- R135: the pixels of an out-of-payload slot are clear. -/
  slot_clear : f.phase = .emit → payloadSize f.lw f.lh ≤ byteIndex f → f.cb = 0
  /-- R31: DONE is set only as the FBU becomes or stays IDLE. -/
  done_idle : f.done = true → f.phase = .idle
  /-- R28. -/
  incount_le : f.incount.toNat ≤ payloadSize f.lw f.lh
  /-- R28. -/
  outcount_le : f.outcount.toNat ≤ jobLength f.lw f.lh
  /-- R32. -/
  y_le : f.y.toNat ≤ rasterHeight f.lw f.lh
  /-- R32. -/
  xb_range : f.xb.toNat < rowBytes f.lw f.lh ∨ f.xb = 0
  /-- After completion: of a MEASURE or an empty RASTER at the start, of a RASTER at the end of the grid (R33, last
  sentence). -/
  done_position : f.done = true → f.xb = 0 ∧ f.j = 0 ∧
    ((f.y = 0 ∧ f.incount = 0 ∧ f.outcount = 0) ∨
      (f.y.toNat = rasterHeight f.lw f.lh ∧ f.incount.toNat = payloadSize f.lw f.lh ∧
        f.outcount.toNat = jobLength f.lw f.lh))

/-! ### Runs -/

/-- `n` steps of the machine. -/
def runSteps (n : Nat) (s : State) : Host.Outcome State Fault Refusal := Host.Core.run Sys2Proof.core n s

/-- `r` is an infinite run whose events are `e 0`, `e 1`, ...: each state is what the event before it makes of the
state before it (20_memory.md R62). -/
def IsRun (e : Nat → Event) (r : Nat → State) : Prop := ∀ n, handleEvent (e n) (r n) = .next (r (n + 1))

/-- A FETCH or EMIT step, once enabled, happens after a finite delay (70_reset_and_hazards.md R245): the FBU later takes
an enabled step, unless from some point on none is enabled any more, because the job was ended or the sink is never
ready again (log entry 14). -/
def OnceEnabledHappens (e : Nat → Event) (r : Nat → State) : Prop :=
  ∀ n, fbuEnabled (r n) →
    ∃ m, n ≤ m ∧ ((e m = .fbu ∧ fbuEnabled (r m)) ∨ ∀ k, m ≤ k → ¬ fbuEnabled (r k))

/-- Weak fairness in its narrow sense, which `OnceEnabledHappens` implies: a step of the FBU that stays enabled is not
delayed for ever (70_reset_and_hazards.md R245, log entry 14). -/
def WeaklyFair (e : Nat → Event) (r : Nat → State) : Prop :=
  ∀ n, (∀ m, n ≤ m → fbuEnabled (r m)) → ∃ m, n ≤ m ∧ e m = .fbu

end Sys2Proof.Machine
end

