-- ==== Sys2Proof/Certificates/Slice0/Obligations.lean ====
section
/-! DEFINITION. The statements for the provers, from the numbered rules of spec/. `response`, `events` and `draws` are
the model's own fields (log entries 1, 2 and 4): a clause about them is the model's, not the spec's. -/

open Sys2Proof Sys2Proof.Machine

/-! ### Encoding -/

/-- 30_encoding.md section 2: the four words of the opcode map, written out, and their neighbours. -/
def Obligations.CommandWordsDecodeAsTheOpcodeMap : Prop :=
  decode 0x00000000#32 = .ok .nop ∧ decode 0x00000001#32 = .ok .measure ∧
    decode 0x00000002#32 = .ok .raster ∧ decode 0x00000003#32 = .ok .abort ∧
    decode 0x00000004#32 = .error (.reserved 0x00000004#32) ∧
    decode 0x00000012#32 = .error (.reserved 0x00000012#32) ∧
    decode 0x80000001#32 = .error (.reserved 0x80000001#32)

/-- 30_encoding.md section 2, 20_memory.md section 3: decoding an encoded command gives it back, as a word, as bytes
with any bytes after them, and as a number of the opcode table (the byte order of the word is log entry 16's). -/
def Obligations.EncodedCommandDecodesToItself : Prop :=
  ∀ (i : Instr) (rest : List Byte), decode (encode i) = .ok i ∧
    decodeBytes (encodeBytes i ++ rest) = .ok (i, rest) ∧ decodeTableWord 32 (encode i).toNat = some i

/-- 30_encoding.md R81, R84: a word is a command if and only if `RSVD = 0` and `OP ≤ 3`, it is then the word of
exactly that command, and every other word is reserved. -/
def Obligations.ExactlyTheValidWordsDecode : Prop :=
  ∀ w : Word,
    (∀ i, decode w = .ok i ↔ w = encode i) ∧
    ((∃ i, decode w = .ok i) ↔ w.extractLsb' 4 28 = 0 ∧ (w.extractLsb' 0 4).toNat ≤ 3) ∧
    ((∀ i, w ≠ encode i) → decode w = .error (.reserved w))

/-! ### Commands -/

/-- 20_memory.md section 5, 42_control.md section 1: when the next event is the host's write of a command word, the
step is `exec` of the decoded command, in that same event. -/
def Obligations.CommandWriteRunsTheDecodedCommand : Prop :=
  ∀ (s : State) (rest : List Event) (w : Word) (i : Instr), decode w = .ok i →
    (s.events = .host { off := 0x04, width := 32, kind := .write w } :: rest →
      step s = exec i { s with events := rest, response := .written }) ∧
    step (s.withFetchWord 32 w.toNat) = exec i { s with response := .written }

/-- 42_control.md R172, R173, R174: the order in which a write to CMD is handled, in every phase. -/
def Obligations.CommandDispatchOrder : Prop :=
  ∀ (s : State) (rest : List Event) (w : Word),
    s.events = .host { off := 0x04, width := 32, kind := .write w } :: rest →
    step s =
      if w.extractLsb' 4 28 ≠ 0 ∨ 4 ≤ (w.extractLsb' 0 4).toNat then
        .next { s with
          events := rest, response := .written
          fbu := { s.fbu with errc := if s.fbu.errc = .none then .rsvd else s.fbu.errc } }
      else if w = 0x00000000#32 then exec .nop { s with events := rest, response := .written }
      else if w = 0x00000003#32 then exec .abort { s with events := rest, response := .written }
      else if s.fbu.phase ≠ .idle then
        .next { s with
          events := rest, response := .written
          fbu := { s.fbu with errc := if s.fbu.errc = .none then .busy else s.fbu.errc } }
      else if w = 0x00000001#32 then exec .measure { s with events := rest, response := .written }
      else exec .raster { s with events := rest, response := .written }

/-- 42_control.md R170: NOP does nothing, in every phase. -/
def Obligations.NopChangesNothing : Prop := ∀ s : State, exec .nop s = .next s

/-- 40_geometry.md R110: MEASURE in IDLE latches GEOM, zeroes the counters, the position and CB and sets DONE; while
busy only the cause BUSY is recorded. Nothing else changes. -/
def Obligations.MeasureLatchesAndIsDone : Prop :=
  ∀ s : State,
    (s.fbu.phase = .idle → exec .measure s = .next { s with
      fbu := { s.fbu with
        lw := s.fbu.geom.extractLsb' 0 16, lh := s.fbu.geom.extractLsb' 16 16
        incount := 0, outcount := 0, y := 0, xb := 0, j := 0, cb := 0, done := true } }) ∧
    (s.fbu.phase ≠ .idle → exec .measure s = .next { s with
      fbu := { s.fbu with errc := if s.fbu.errc = .none then .busy else s.fbu.errc } })

/-- 41_raster.md R130: RASTER in IDLE latches GEOM, zeroes the counters, the position and CB; a non-empty glyph
clears DONE and goes to FETCH, an empty one is done at once; while busy only the cause BUSY is recorded. Nothing else
changes. -/
def Obligations.RasterLatchesAndStarts : Prop :=
  ∀ s : State,
    (s.fbu.phase = .idle → 0 < (s.fbu.geom.extractLsb' 0 16).toInt → 0 < (s.fbu.geom.extractLsb' 16 16).toInt →
      exec .raster s = .next { s with
        fbu := { s.fbu with
          lw := s.fbu.geom.extractLsb' 0 16, lh := s.fbu.geom.extractLsb' 16 16
          incount := 0, outcount := 0, y := 0, xb := 0, j := 0, cb := 0, done := false, phase := .fetch } }) ∧
    (s.fbu.phase = .idle → (s.fbu.geom.extractLsb' 0 16).toInt ≤ 0 ∨ (s.fbu.geom.extractLsb' 16 16).toInt ≤ 0 →
      exec .raster s = .next { s with
        fbu := { s.fbu with
          lw := s.fbu.geom.extractLsb' 0 16, lh := s.fbu.geom.extractLsb' 16 16
          incount := 0, outcount := 0, y := 0, xb := 0, j := 0, cb := 0, done := true } }) ∧
    (s.fbu.phase ≠ .idle → exec .raster s = .next { s with
      fbu := { s.fbu with errc := if s.fbu.errc = .none then .busy else s.fbu.errc } })

/-- 42_control.md R171: ABORT, in every phase, ends any job and clears DONE and ERRC; the latched geometry, the
position, CB, the counters and everything else keep their values. -/
def Obligations.AbortEndsAnyJob : Prop :=
  ∀ s : State, exec .abort s = .next { s with fbu := { s.fbu with phase := .idle, done := false, errc := .none } }

/-- 40_geometry.md section 2, 41_raster.md section 2, 42_control.md section 2 (frame): no command touches GEOM, either
stream, the sink or the events to come; a command that is not accepted touches nothing of the FBU but ERRC, and none
but ABORT overwrites a recorded ERRC. -/
def Obligations.CommandsTouchOnlyTheirElements : Prop :=
  ∀ (i : Instr) (s t : State), exec i s = .next t →
    t.fbu.geom = s.fbu.geom ∧ t.inStream = s.inStream ∧ t.outStream = s.outStream ∧ t.sinkReady = s.sinkReady ∧
    t.response = s.response ∧ t.events = s.events ∧ t.draws = s.draws ∧
    (s.fbu.phase ≠ .idle → i ≠ .abort → t.fbu = { s.fbu with errc := t.fbu.errc }) ∧
    (s.fbu.errc ≠ .none → i ≠ .abort → t.fbu.errc = s.fbu.errc)

/-! ### The whole machine -/

/-- 10_state.md R31: each stored element is set, counted or cleared only by its writers; any other event leaves it
unchanged. -/
def Obligations.StoredElementsChangeOnlyByTheirWriters : Prop :=
  ∀ s t : State, step s = .next t →
    (t.fbu.geom ≠ s.fbu.geom → s.nextEvent = .reset ∨ geomWritten s.nextEvent = some t.fbu.geom) ∧
    (t.fbu.lw ≠ s.fbu.lw ∨ t.fbu.lh ≠ s.fbu.lh → s.nextEvent = .reset ∨ accepted s s.nextEvent) ∧
    (s.fbu.done = false → t.fbu.done = true → accepted s s.nextEvent ∨
      (s.nextEvent = .fbu ∧ s.fbu.phase = .emit ∧ t.fbu.phase = .idle)) ∧
    (s.fbu.done = true → t.fbu.done = false →
      s.nextEvent = .reset ∨ accepted s s.nextEvent ∨ issues .abort s.nextEvent) ∧
    (t.fbu.errc ≠ s.fbu.errc →
      ((s.nextEvent = .reset ∨ issues .abort s.nextEvent) ∧ t.fbu.errc = .none) ∨
      (s.fbu.errc = .none ∧ rejected s s.nextEvent)) ∧
    (t.fbu.phase ≠ s.fbu.phase → s.nextEvent = .reset ∨ issues .abort s.nextEvent ∨
      (s.fbu.phase = .idle ∧ issues .raster s.nextEvent ∧ t.fbu.phase = .fetch) ∨
      (s.nextEvent = .fbu ∧ s.fbu.phase = .fetch ∧ t.fbu.phase = .emit) ∨
      (s.nextEvent = .fbu ∧ s.fbu.phase = .emit ∧ t.fbu.phase ≠ .emit)) ∧
    (t.fbu.y ≠ s.fbu.y ∨ t.fbu.xb ≠ s.fbu.xb ∨ t.fbu.j ≠ s.fbu.j →
      s.nextEvent = .reset ∨ accepted s s.nextEvent ∨ (s.nextEvent = .fbu ∧ s.fbu.phase = .emit)) ∧
    (t.fbu.cb ≠ s.fbu.cb →
      s.nextEvent = .reset ∨ accepted s s.nextEvent ∨ (s.nextEvent = .fbu ∧ s.fbu.phase = .fetch)) ∧
    (t.fbu.incount ≠ s.fbu.incount →
      ((s.nextEvent = .reset ∨ accepted s s.nextEvent) ∧ t.fbu.incount = 0) ∨
      (s.nextEvent = .fbu ∧ s.fbu.phase = .fetch ∧ t.fbu.incount = s.fbu.incount + 1)) ∧
    (t.fbu.outcount ≠ s.fbu.outcount →
      ((s.nextEvent = .reset ∨ accepted s s.nextEvent) ∧ t.fbu.outcount = 0) ∨
      (s.nextEvent = .fbu ∧ s.fbu.phase = .emit ∧ t.fbu.outcount = s.fbu.outcount + 1))

/-- 60_exceptions.md sections 1 and 9: no step faults or is refused; every event completes in its own step, and the
order of the events to come is kept. -/
def Obligations.EveryStepGivesANextState : Prop :=
  ∀ s : State, ∃ t, step s = .next t ∧ t.events = s.events.tail

/-- Log entry 2, 92_eei_decisions.md D35 (the model's choice of where a free event comes from): when no event is
fixed, the step is the next free event's, whatever it is. -/
def Obligations.FreeEventFollowsTheFixedOnes : Prop :=
  ∀ s : State, s.events = [] →
    step s = handleEvent (Config.freeEvent s.draws) { s with draws := s.draws + 1 }

/-! ### The control window -/

/-- 20_memory.md R51: an access that is not 32 bits wide, aligned and inside the window ends in BusError with no other
effect; any other is a register read (a fetch too) or a register write. -/
def Obligations.OnlyAlignedWordAccessesReachARegister : Prop :=
  ∀ (s : State) (rest : List Event) (a : Access), s.events = .host a :: rest →
    (a.width ≠ 32 ∨ a.off % 4 ≠ 0 ∨ 0x3C < a.off →
      step s = .next { s with events := rest, response := .busError a.off a.width }) ∧
    (a.width = 32 → a.off % 4 = 0 → a.off ≤ 0x3C →
      (a.kind = .read ∨ a.kind = .fetch →
        step s = .next { s with events := rest, response := .data (regRead a.off s.fbu) }) ∧
      (∀ v, a.kind = .write v → step s = regWrite a.off v { s with events := rest, response := .written }))

/-- 10_state.md R30, 20_memory.md R52: a 32-bit write to a read-only register or a reserved offset is ignored, CMD
and the reserved offsets read 0, and so do the bits of STATUS that its layout marks `—` (no other register has any). -/
def Obligations.ReadOnlyAndReservedOffsets : Prop :=
  (∀ off, off % 4 = 0 → 0x08 ≤ off → off ≤ 0x3C → ignoresWrites off) ∧
  (∀ f : Fbu, (regRead 0x08 f).extractLsb' 8 24 = 0) ∧
  (∀ (s : State) (rest : List Event) (off : Nat), off % 4 = 0 → off = 0x04 ∨ 0x28 ≤ off → off ≤ 0x3C →
    s.events = .host { off := off, width := 32, kind := .read } :: rest →
      step s = .next { s with events := rest, response := .data 0 })

/-- 10_state.md R23: a GEOM write is taken in every phase, reads back as written and changes nothing else; no event
but a GEOM write or a reset changes GEOM; the FBU's own turn does the same whatever GEOM holds, so a running job is not
affected; GEOM is 0 at reset, and its fields are bits [15:0] and [31:16]. -/
def Obligations.GeomWriteReadsBack : Prop :=
  State.reset.fbu.geom = 0 ∧
  (∀ v : Word, geomWidth v = v.extractLsb' 0 16 ∧ geomHeight v = v.extractLsb' 16 16) ∧
  (∀ (s : State) (rest : List Event) (v : Word),
    s.events = .host { off := 0x00, width := 32, kind := .write v } ::
      .host { off := 0x00, width := 32, kind := .read } :: rest →
    runSteps 2 s = .next { s with events := rest, response := .data v, fbu := { s.fbu with geom := v } }) ∧
  (∀ s t : State, step s = .next t → geomWritten s.nextEvent = none → s.nextEvent ≠ .reset →
    t.fbu.geom = s.fbu.geom) ∧
  (∀ (s t : State) (rest : List Event) (g : Word), s.events = .fbu :: rest → step s = .next t →
    step { s with fbu := { s.fbu with geom := g } } = .next { t with fbu := { t.fbu with geom := g } })

/-- 10_state.md R25: the fields of STATUS, each computed from the stored state at the read and none writable, and its
reset value. -/
def Obligations.StatusReadsItsFields : Prop :=
  regRead 0x08 State.reset.fbu = 0x00000004#32 ∧ ignoresWrites 0x08 ∧
  ∀ (s : State) (rest : List Event), s.events = .host { off := 0x08, width := 32, kind := .read } :: rest →
    ∃ v : Word, step s = .next { s with events := rest, response := .data v } ∧
      (v.getLsbD 0 = true ↔ s.fbu.phase ≠ .idle) ∧
      v.getLsbD 1 = s.fbu.done ∧
      (v.getLsbD 2 = true ↔ s.fbu.lw.toInt ≤ 0 ∨ s.fbu.lh.toInt ≤ 0) ∧
      (v.getLsbD 3 = true ↔ s.fbu.errc ≠ .none) ∧
      ((v.extractLsb' 4 2).toNat = match s.fbu.phase with | .idle => 0 | .fetch => 1 | .emit => 2) ∧
      ((v.extractLsb' 6 2).toNat = match s.fbu.errc with | .none => 0 | .rsvd => 1 | .busy => 2) ∧
      v.extractLsb' 8 24 = 0

/-- 10_state.md R27 (and the fields of LGEOM, section 2): LGEOM, SIZE, ROWBYTES and DIM read the latched geometry and
its functions exactly, in their ranges; they are read-only, and 0 at reset. -/
def Obligations.GeometryRegistersReadExactly : Prop :=
  (∀ off, off = 0x0C ∨ off = 0x10 ∨ off = 0x14 ∨ off = 0x18 → regRead off State.reset.fbu = 0 ∧ ignoresWrites off) ∧
  ∀ f : Fbu,
    (regRead 0x0C f).extractLsb' 0 16 = f.lw ∧ (regRead 0x0C f).extractLsb' 16 16 = f.lh ∧
    (regRead 0x10 f).toNat = payloadSize f.lw f.lh ∧ payloadSize f.lw f.lh ≤ 0x07FFF000 ∧
    (regRead 0x14 f).toNat = rowBytes f.lw f.lh ∧ rowBytes f.lw f.lh ≤ 4096 ∧
    ((regRead 0x18 f).extractLsb' 0 16).toNat = rasterWidth f.lw f.lh ∧ rasterWidth f.lw f.lh ≤ 32768 ∧
    ((regRead 0x18 f).extractLsb' 16 16).toNat = rasterHeight f.lw f.lh ∧ rasterHeight f.lw f.lh ≤ 32768

/-- 10_state.md R29 (and the bounds of INCOUNT and OUTCOUNT, section 2): INCOUNT, OUTCOUNT and POS are read-only, 0 at
reset and read the stored counters and position; the bounds and the row after completion are those of a state that
meets the job invariant (whose bounds the spec derives). -/
def Obligations.CountersAndPositionRead : Prop :=
  (∀ off, off = 0x1C ∨ off = 0x20 ∨ off = 0x24 → regRead off State.reset.fbu = 0 ∧ ignoresWrites off) ∧
  ∀ f : Fbu,
    regRead 0x1C f = f.incount ∧ regRead 0x20 f = f.outcount ∧
    ((regRead 0x24 f).extractLsb' 0 16).toNat = 8 * f.xb.toNat + f.j.toNat ∧
    ((regRead 0x24 f).extractLsb' 0 16).toNat ≤ 32767 ∧ (regRead 0x24 f).extractLsb' 16 16 = f.y ∧
    (JobInv f → f.incount.toNat ≤ payloadSize f.lw f.lh ∧
      f.outcount.toNat ≤ rasterWidth f.lw f.lh * rasterHeight f.lw f.lh ∧ f.outcount.toNat ≤ 2 ^ 30 ∧
      ((regRead 0x24 f).extractLsb' 16 16).toNat ≤ 32768 ∧
      (f.done = true → f.outcount ≠ 0 → ((regRead 0x24 f).extractLsb' 16 16).toNat = rasterHeight f.lw f.lh))

/-- 20_memory.md section 1: the window is the 64 bytes from `FBU_BASE`, a multiple of 0x40; an access inside it is one
at its offset, an access outside it does not reach the FBU. What the host is answered outside is left to the platform
there: the marker `notReached` is the model's choice (log entry 5). -/
def Obligations.OnlyTheWindowReachesTheFbu : Prop :=
  Config.fbuBase % 0x40 = 0 ∧
  ∀ (s : State) (rest : List Event) (a : Access), s.events = .bus a :: rest →
    (∀ off, off < 0x40 → a.off = Config.fbuBase + off →
      step s = step { s with events := .host { a with off := off } :: rest }) ∧
    (a.off < Config.fbuBase ∨ Config.fbuBase + 0x40 ≤ a.off →
      step s = .next { s with events := rest, response := .notReached a.off })

/-! ### Geometry -/

/-- 40_geometry.md R102, R103, R104, R105: the geometry functions of an empty and of a non-empty glyph, with `w` and
`h` the two's complement integers of the latched fields (section 1; log entry 17). -/
def Obligations.GeometryFunctionsOfAGlyph : Prop :=
  ∀ lw lh : Half,
    (isEmpty lw lh = true ↔ lw.toInt ≤ 0 ∨ lh.toInt ≤ 0) ∧
    (lw.toInt ≤ 0 ∨ lh.toInt ≤ 0 →
      rowBytes lw lh = 0 ∧ payloadSize lw lh = 0 ∧ rasterWidth lw lh = 0 ∧ rasterHeight lw lh = 0) ∧
    (0 < lw.toInt → 0 < lh.toInt →
      (rowBytes lw lh : Int) = (lw.toInt + 7) / 8 ∧ 1 ≤ rowBytes lw lh ∧ rowBytes lw lh ≤ 4096 ∧
      (payloadSize lw lh : Int) = (lh.toInt * rowBytes lw lh + 3) / 4 * 4 ∧
      4 ≤ payloadSize lw lh ∧ payloadSize lw lh ≤ 134213632 ∧
      rasterWidth lw lh = 8 * rowBytes lw lh ∧ 8 ≤ rasterWidth lw lh ∧ rasterWidth lw lh ≤ 32768 ∧
      (rasterHeight lw lh : Int) = 4 * ((lh.toInt + 3) / 4) ∧ 4 ≤ rasterHeight lw lh ∧
      rasterHeight lw lh ≤ 32768)

/-- 40_geometry.md section 1 (the eight properties that the spec derives there). -/
def Obligations.PaddingProperties : Prop :=
  ∀ lw lh : Half,
    payloadSize lw lh % 4 = 0 ∧
    (0 < lw.toInt → 0 < lh.toInt → lh.toInt * rowBytes lw lh ≤ payloadSize lw lh ∧
      payloadSize lw lh - lh.toInt * rowBytes lw lh ≤ 3) ∧
    (payloadSize lw lh = 0 ↔ lw.toInt ≤ 0 ∨ lh.toInt ≤ 0) ∧
    payloadSize lw lh ≤ rasterHeight lw lh * rowBytes lw lh ∧
    (rowBytes lw lh = 1 → rasterHeight lw lh * rowBytes lw lh = payloadSize lw lh) ∧
    rasterWidth lw lh % 8 = 0 ∧ rasterHeight lw lh % 4 = 0 ∧
    (0 < lw.toInt → 0 < lh.toInt →
      lw.toInt ≤ rasterWidth lw lh ∧ rasterWidth lw lh - lw.toInt ≤ 7 ∧
      lh.toInt ≤ rasterHeight lw lh ∧ rasterHeight lw lh - lh.toInt ≤ 3)

/-- 40_geometry.md section 1 (the three ranges of grid bytes, which the spec derives there) with 41_raster.md R134's
classes: a grid byte's class says exactly which range its index lies in. -/
def Obligations.ClassesAreTheThreeRanges : Prop :=
  ∀ (lw lh : Half) (b : Nat), b < rasterHeight lw lh * rowBytes lw lh →
    (pixelClass lw lh (b / rowBytes lw lh) b = .data ↔ (b : Int) < lh.toInt * rowBytes lw lh) ∧
    (pixelClass lw lh (b / rowBytes lw lh) b = .fill ↔
      lh.toInt * rowBytes lw lh ≤ (b : Int) ∧ b < payloadSize lw lh) ∧
    (pixelClass lw lh (b / rowBytes lw lh) b = .oob ↔ payloadSize lw lh ≤ b)

/-! ### The sequencer -/

/-- 41_raster.md R138: FETCH pops one payload byte into CB, or loads 0x00 beyond the payload, or waits. -/
def Obligations.FetchLoadsOneGridByte : Prop :=
  ∀ (s : State) (rest : List Event), s.events = .fbu :: rest → s.fbu.phase = .fetch →
    (s.fbu.y.toNat * rowBytes s.fbu.lw s.fbu.lh + s.fbu.xb.toNat < payloadSize s.fbu.lw s.fbu.lh →
      (∀ (p : Byte) (q : List Byte), s.inStream = p :: q →
        step s = .next { s with
          events := rest, inStream := q
          fbu := { s.fbu with cb := p, incount := s.fbu.incount + 1, phase := .emit } }) ∧
      (s.inStream = [] → step s = .next { s with events := rest })) ∧
    (payloadSize s.fbu.lw s.fbu.lh ≤ s.fbu.y.toNat * rowBytes s.fbu.lw s.fbu.lh + s.fbu.xb.toNat →
      step s = .next { s with events := rest, fbu := { s.fbu with cb := 0, phase := .emit } })

/-- 41_raster.md R139: EMIT delivers one beat, with the pixel, its class and its flags, and moves to the next bit, the
next byte of the row, the next row, or IDLE; it waits while the sink is not ready. -/
def Obligations.EmitDeliversOneBeatAndAdvances : Prop :=
  ∀ (s : State) (rest : List Event) (x b : Nat) (beat : BeatFields),
    s.events = .fbu :: rest → s.fbu.phase = .emit →
    x = 8 * s.fbu.xb.toNat + s.fbu.j.toNat →
    b = s.fbu.y.toNat * rowBytes s.fbu.lw s.fbu.lh + s.fbu.xb.toNat →
    beat.pix = s.fbu.cb.getLsbD (7 - s.fbu.j.toNat) →
    beat.cls = pixelClass s.fbu.lw s.fbu.lh s.fbu.y.toNat b →
    (beat.eor = true ↔ (x : Int) = rasterWidth s.fbu.lw s.fbu.lh - 1) →
    (beat.eog = true ↔
      (x : Int) = rasterWidth s.fbu.lw s.fbu.lh - 1 ∧ (s.fbu.y.toNat : Int) = rasterHeight s.fbu.lw s.fbu.lh - 1) →
    (beat.colpad = true ↔ s.fbu.lw.toInt ≤ (x : Int)) →
    (s.sinkReady = false → step s = .next { s with events := rest }) ∧
    (s.sinkReady = true → s.fbu.j.toNat < 7 →
      step s = .next { s with
        events := rest, outStream := s.outStream ++ [packBeat beat]
        fbu := { s.fbu with outcount := s.fbu.outcount + 1, j := s.fbu.j + 1 } }) ∧
    (s.sinkReady = true → s.fbu.j.toNat = 7 → ∀ (y' : BitVec 16) (xb' : BitVec 12),
      (s.fbu.xb.toNat + 1 < rowBytes s.fbu.lw s.fbu.lh → xb' = s.fbu.xb + 1 ∧ y' = s.fbu.y) →
      (rowBytes s.fbu.lw s.fbu.lh ≤ s.fbu.xb.toNat + 1 → xb' = 0 ∧ y' = s.fbu.y + 1) →
      step s = .next { s with
        events := rest, outStream := s.outStream ++ [packBeat beat]
        fbu :=
          if y'.toNat = rasterHeight s.fbu.lw s.fbu.lh then
            { s.fbu with
              outcount := s.fbu.outcount + 1, j := 0, xb := xb', y := y', phase := .idle, done := true }
          else
            { s.fbu with
              outcount := s.fbu.outcount + 1, j := 0, xb := xb', y := y', phase := .fetch } })

/-- 30_encoding.md R85, 41_raster.md R133, R134, R136: every field of the beat that EMIT delivers, with `x` and `y` the
pixel's column and row and `b` the index of its grid byte; class 3 never occurs and EOG implies EOR. -/
def Obligations.BeatCarriesThePixelAndItsFlags : Prop :=
  ∀ (f : Fbu) (x y b : Nat), x = 8 * f.xb.toNat + f.j.toNat → y = f.y.toNat →
    b = f.y.toNat * rowBytes f.lw f.lh + f.xb.toNat →
    (emitBeat f).getLsbD 0 = f.cb.getLsbD (7 - f.j.toNat) ∧
    (((emitBeat f).extractLsb' 1 2).toNat =
      if (y : Int) < f.lh.toInt then 0 else if b < payloadSize f.lw f.lh then 1 else 2) ∧
    ((emitBeat f).getLsbD 3 = true ↔ (x : Int) = rasterWidth f.lw f.lh - 1) ∧
    ((emitBeat f).getLsbD 4 = true ↔
      (x : Int) = rasterWidth f.lw f.lh - 1 ∧ (y : Int) = rasterHeight f.lw f.lh - 1) ∧
    ((emitBeat f).getLsbD 5 = true ↔ f.lw.toInt ≤ (x : Int)) ∧
    (emitBeat f).extractLsb' 1 2 ≠ 3 ∧
    ((emitBeat f).getLsbD 4 = true → (emitBeat f).getLsbD 3 = true)

/-- 41_raster.md R137: pixels are delivered in row-major order; the beat that comes after `n` others carries the pixel
in column `n mod W` and row `n div W`. -/
def Obligations.BeatsAreRowMajor : Prop :=
  ∀ f : Fbu, JobInv f → f.phase = .emit →
    columnOf f = f.outcount.toNat % rasterWidth f.lw f.lh ∧
    f.y.toNat = f.outcount.toNat / rasterWidth f.lw f.lh ∧
    byteIndex f = gridIndex f.lw f.lh (columnOf f) f.y.toNat

/-- 41_raster.md R140: in a state of a job, the EMIT step that delivers the beat with EOG = 1, and no other, completes
the job, and the state it leaves is the one 10_state.md section 4 gives. -/
def Obligations.JobCompletesWithItsLastBeat : Prop :=
  ∀ (s t : State) (rest : List Event), JobInv s.fbu → s.events = .fbu :: rest → s.fbu.phase = .emit →
    s.sinkReady = true → step s = .next t →
    ((emitBeat s.fbu).getLsbD 4 = true → t.fbu.phase = .idle ∧ t.fbu.done = true ∧
      t.fbu.y.toNat = rasterHeight s.fbu.lw s.fbu.lh ∧ t.fbu.xb = 0 ∧ t.fbu.j = 0 ∧
      t.fbu.incount.toNat = payloadSize s.fbu.lw s.fbu.lh ∧
      t.fbu.outcount.toNat = rasterWidth s.fbu.lw s.fbu.lh * rasterHeight s.fbu.lw s.fbu.lh) ∧
    ((emitBeat s.fbu).getLsbD 4 = false → t.fbu.phase ≠ .idle ∧ t.fbu.done = false)

/-- 41_raster.md R144: a turn of the FBU never sets ERRC, and it leaves the FBU as it was only in IDLE, when FETCH
waits on IN, or when EMIT waits on OUT. -/
def Obligations.JobStepsOnlyWaitOrProgress : Prop :=
  ∀ (s : State) (rest : List Event), s.events = .fbu :: rest →
    ∃ t, step s = .next t ∧ t.fbu.errc = s.fbu.errc ∧
      (t.fbu = s.fbu ↔ s.fbu.phase = .idle ∨
        (s.fbu.phase = .fetch ∧ byteIndex s.fbu < payloadSize s.fbu.lw s.fbu.lh ∧ s.inStream = []) ∨
        (s.fbu.phase = .emit ∧ s.sinkReady = false))

/-! ### The streams -/

/-- 20_memory.md section 4: the source's offers go to the end of IN; the FBU takes one byte from its front in a FETCH
step whose byte index is below SIZE, and never more than SIZE bytes in a job. That no other event changes IN, so that an
offered byte is never withdrawn, is the model's choice (DESIGN CHOICE, log entry 19). -/
def Obligations.InIsPoppedOnlyByFetchBelowSize : Prop :=
  ∀ s t : State, step s = .next t →
    (∃ b, s.nextEvent = .offer b ∧ t.inStream = s.inStream ++ [b] ∧ t.fbu = s.fbu) ∨
    (s.nextEvent = .fbu ∧ s.fbu.phase = .fetch ∧ byteIndex s.fbu < payloadSize s.fbu.lw s.fbu.lh ∧
      s.inStream = t.fbu.cb :: t.inStream ∧ t.fbu.incount = s.fbu.incount + 1 ∧
      (JobInv s.fbu → s.fbu.incount.toNat < payloadSize s.fbu.lw s.fbu.lh)) ∨
    ((∀ b, s.nextEvent ≠ .offer b) ∧ t.inStream = s.inStream ∧
      (t.fbu.incount = s.fbu.incount ∨ t.fbu.incount = 0))

/-- 20_memory.md R59: a beat is delivered only by an EMIT step with the sink ready, one beat in one step, after all
beats before it; no beat is lost, repeated or moved. -/
def Obligations.OutGrowsOnlyByEmit : Prop :=
  ∀ s t : State, step s = .next t →
    (s.nextEvent = .fbu ∧ s.fbu.phase = .emit ∧ s.sinkReady = true ∧
      t.outStream = s.outStream ++ [emitBeat s.fbu] ∧ t.fbu.outcount = s.fbu.outcount + 1) ∨
    (¬ (s.nextEvent = .fbu ∧ s.fbu.phase = .emit ∧ s.sinkReady = true) ∧ t.outStream = s.outStream ∧
      (t.fbu.outcount = s.fbu.outcount ∨ t.fbu.outcount = 0))

/-- 20_memory.md section 5 (the order of pops and beats, which the spec derives there): a byte is popped only when
every beat of the grid bytes before it has been delivered and none of its own. -/
def Obligations.NoByteIsPoppedAheadOfNeed : Prop :=
  ∀ s t : State, JobInv s.fbu → step s = .next t →
    (t.inStream ≠ s.inStream → s.nextEvent = .fbu →
      s.fbu.outcount.toNat = 8 * s.fbu.incount.toNat ∧ t.fbu.outcount = s.fbu.outcount) ∧
    (t.outStream ≠ s.outStream →
      8 * byteIndex s.fbu ≤ s.fbu.outcount.toNat ∧ s.fbu.outcount.toNat < 8 * byteIndex s.fbu + 8 ∧
      s.fbu.incount.toNat = min (byteIndex s.fbu + 1) (payloadSize s.fbu.lw s.fbu.lh))

/-- 60_exceptions.md R209: each wait is lifted only by another agent: a byte offered (or the sink ready), ABORT, or
reset; and a byte offered, or the sink ready, does lift it. -/
def Obligations.WaitsAreLiftedOnlyByOtherAgents : Prop :=
  ∀ s t : State, step s = .next t →
    (waitsForByte s →
      ((∀ b, s.nextEvent ≠ .offer b) → s.nextEvent ≠ .reset → ¬ issues .abort s.nextEvent → waitsForByte t) ∧
      (∀ b, s.nextEvent = .offer b → fbuEnabled t)) ∧
    (waitsForSink s →
      (s.nextEvent ≠ .sink true → s.nextEvent ≠ .reset → ¬ issues .abort s.nextEvent → waitsForSink t) ∧
      (s.nextEvent = .sink true → fbuEnabled t)) ∧
    (waitsForByte s ∨ waitsForSink s → s.nextEvent = .reset ∨ issues .abort s.nextEvent → t.fbu.phase = .idle)

/-! ### Reset -/

/-- 10_state.md R34: every stored element of the FBU after reset, and what the computed registers then read. -/
def Obligations.ResetLeavesEveryElementAtItsValue : Prop :=
  State.reset.fbu =
      { geom := 0, lw := 0, lh := 0, phase := .idle, done := false, errc := .none, y := 0, xb := 0, j := 0, cb := 0,
        incount := 0, outcount := 0 } ∧
    regRead 0x08 State.reset.fbu = 0x00000004#32 ∧ regRead 0x0C State.reset.fbu = 0 ∧
    regRead 0x10 State.reset.fbu = 0 ∧ regRead 0x14 State.reset.fbu = 0 ∧ regRead 0x18 State.reset.fbu = 0 ∧
    regRead 0x24 State.reset.fbu = 0

/-- 70_reset_and_hazards.md R230: the reset event, in any state, sets every stored element to its reset value, pops no
byte and delivers no beat. -/
def Obligations.ResetEventResetsTheFbuOnly : Prop :=
  ∀ (s : State) (rest : List Event), s.events = .reset :: rest →
    step s = .next { s with
      events := rest
      fbu :=
        { geom := 0, lw := 0, lh := 0, phase := .idle, done := false, errc := .none, y := 0, xb := 0, j := 0,
          cb := 0, incount := 0, outcount := 0 } }

/-! ### The job invariant -/

/-- 10_state.md sections 2 and 4: the job invariant holds at reset. -/
def Obligations.JobInvariantHoldsAtReset : Prop := JobInv State.reset.fbu

/-- 10_state.md sections 2 and 4 (the ranges and job invariants that the spec derives there): every step keeps the job
invariant, whatever the event is. -/
def Obligations.EveryStepKeepsTheJobInvariant : Prop :=
  ∀ s t : State, JobInv s.fbu → step s = .next t → JobInv t.fbu

/-! ### Whole jobs -/

/-- 41_raster.md section 4 (what the spec derives there of a whole job), 20_memory.md section 5: take any run that
begins with an accepted RASTER of a non-empty glyph and goes on with any events that neither end nor start a job: the
source's offers, the sink, the FBU's turns, reads, GEOM writes, NOP, reserved words. Then the beats delivered so far are
the first OUTCOUNT beats of the grid of the payload, the bytes popped so far are the first INCOUNT bytes of IN, all of
them really offered, and when DONE is set they are all the beats and SIZE bytes, no more and no less. That what was
offered stays on IN until it is popped is the model's choice (log entry 19). -/
def Obligations.RasterRunDeliversTheGrid : Prop :=
  ∀ (s : State) (es rest : List Event) (lw lh : Half),
    s.fbu.phase = .idle → lw = geomWidth s.fbu.geom → lh = geomHeight s.fbu.geom → isEmpty lw lh = false →
    s.events = commandEvent (encode .raster) :: (es ++ rest) → (∀ e ∈ es, keepsJob e) →
    ∃ t, runSteps (es.length + 1) s = .next t ∧ t.events = rest ∧ t.fbu.lw = lw ∧ t.fbu.lh = lh ∧
      t.outStream = s.outStream ++ (jobBeats lw lh (s.inStream ++ offeredBy es)).take t.fbu.outcount.toNat ∧
      t.inStream = (s.inStream ++ offeredBy es).drop t.fbu.incount.toNat ∧
      t.fbu.incount.toNat ≤ (s.inStream ++ offeredBy es).length ∧
      t.fbu.incount.toNat ≤ payloadSize lw lh ∧ t.fbu.outcount.toNat ≤ rasterWidth lw lh * rasterHeight lw lh ∧
      (t.fbu.done = true ↔ t.fbu.phase = .idle) ∧
      (t.fbu.done = true → t.fbu.incount.toNat = payloadSize lw lh ∧
        t.fbu.outcount.toNat = rasterWidth lw lh * rasterHeight lw lh ∧
        payloadSize lw lh ≤ (s.inStream ++ offeredBy es).length)

/-- 70_reset_and_hazards.md section 4 (what the spec derives there), in steps: with all SIZE bytes offered and the
sink ready and staying so, a RASTER of a non-empty glyph has completed once the FBU has had one turn for each FETCH and
each beat, nine for each grid byte, wherever in the run those turns come. That what was offered stays on IN until it is
popped is the model's choice (log entry 19). -/
def Obligations.RasterRunCompletes : Prop :=
  ∀ (s : State) (es rest : List Event) (lw lh : Half),
    s.fbu.phase = .idle → lw = geomWidth s.fbu.geom → lh = geomHeight s.fbu.geom → isEmpty lw lh = false →
    s.events = commandEvent (encode .raster) :: (es ++ rest) → (∀ e ∈ es, keepsJob e ∧ e ≠ .sink false) →
    s.sinkReady = true → payloadSize lw lh ≤ s.inStream.length →
    9 * (rasterHeight lw lh * rowBytes lw lh) ≤ turnsIn es →
    ∃ t, runSteps (es.length + 1) s = .next t ∧ t.fbu.done = true ∧ t.fbu.phase = .idle ∧
      t.outStream = s.outStream ++ jobBeats lw lh (s.inStream.take (payloadSize lw lh)) ∧
      t.inStream = s.inStream.drop (payloadSize lw lh) ++ offeredBy es

/-- 70_reset_and_hazards.md section 4 (weak fairness): in every infinite weakly fair run in which a job is running,
its missing bytes are offered, the sink stays ready, and no event ends or starts a job, the job completes. That an
offered byte stays on IN until it is popped is the model's choice (log entry 19). -/
def Obligations.FairRunCompletesTheJob : Prop :=
  ∀ (e : Nat → Event) (r : Nat → State),
    IsRun e r → WeaklyFair e r → JobInv (r 0).fbu → (r 0).fbu.phase ≠ .idle → (r 0).sinkReady = true →
    payloadSize (r 0).fbu.lw (r 0).fbu.lh ≤ (r 0).fbu.incount.toNat + (r 0).inStream.length →
    (∀ n, keepsJob (e n) ∧ e n ≠ .sink false) →
    ∃ n, (r n).fbu.done = true ∧ (r n).fbu.phase = .idle

/-- 70_reset_and_hazards.md section 4 (what the spec derives there): where a step, once enabled, happens after a finite
delay, a running job whose bytes are all offered at some time, and whose sink is ready infinitely often, however often it
is not, completes. The reading of the fairness is log entry 14; that an offered byte stays on IN until it is popped is
the model's choice (log entry 19). -/
def Obligations.SinkReadyInfinitelyOftenCompletesTheJob : Prop :=
  ∀ (e : Nat → Event) (r : Nat → State),
    IsRun e r → OnceEnabledHappens e r → JobInv (r 0).fbu → (r 0).fbu.phase ≠ .idle → (∀ n, keepsJob (e n)) →
    (∃ n, payloadSize (r 0).fbu.lw (r 0).fbu.lh ≤ (r n).fbu.incount.toNat + (r n).inStream.length) →
    (∀ n, ∃ m, n ≤ m ∧ (r m).sinkReady = true) →
    ∃ n, (r n).fbu.done = true ∧ (r n).fbu.phase = .idle

/-- 42_control.md section 2, 70_reset_and_hazards.md section 3 (what the spec derives there): ABORT in the middle of
such a run keeps INCOUNT, and INCOUNT is exactly how many bytes of IN are gone, also where IN is empty by then, so the
host knows how many to discard. That what was offered stays on IN until it is popped is the model's choice (log entry
19). -/
def Obligations.AbortedJobTellsWhatItPopped : Prop :=
  ∀ (s : State) (es rest : List Event) (lw lh : Half),
    s.fbu.phase = .idle → lw = geomWidth s.fbu.geom → lh = geomHeight s.fbu.geom → isEmpty lw lh = false →
    s.events = commandEvent (encode .raster) :: (es ++ commandEvent (encode .abort) :: rest) →
    (∀ e ∈ es, keepsJob e) →
    ∃ t, runSteps (es.length + 2) s = .next t ∧ t.events = rest ∧ t.fbu.phase = .idle ∧ t.fbu.done = false ∧
      t.fbu.errc = .none ∧ t.fbu.lw = lw ∧ t.fbu.lh = lh ∧ t.fbu.incount.toNat ≤ payloadSize lw lh ∧
      t.fbu.incount.toNat ≤ (s.inStream ++ offeredBy es).length ∧
      t.inStream = (s.inStream ++ offeredBy es).drop t.fbu.incount.toNat ∧
      t.outStream = s.outStream ++ (jobBeats lw lh (s.inStream ++ offeredBy es)).take t.fbu.outcount.toNat

/-! ### What does not matter -/

/-- 93_implementation_defined.md U1 and 41_raster.md section 1: beats of glyph rows do not depend on the fill bytes, and
beats of out-of-payload slots depend on no byte at all. -/
def Obligations.FillBytesDoNotReachGlyphRows : Prop :=
  ∀ (lw lh : Half) (p q : List Byte) (n : Nat), isEmpty lw lh = false →
    ((∀ b, b < dataBytes lw lh → p.getD b 0 = q.getD b 0) →
      n < rasterWidth lw lh * logicalHeight lh → jobBeat lw lh p n = jobBeat lw lh q n) ∧
    (8 * payloadSize lw lh ≤ n → jobBeat lw lh p n = jobBeat lw lh q n)

/-- 70_reset_and_hazards.md section 3: while BUSY = 0 no stored element, so no register, changes until the host
writes GEOM or CMD, or a reset. -/
def Obligations.IdleRegistersAreStable : Prop :=
  ∀ s t : State, s.fbu.phase = .idle → step s = .next t → s.nextEvent ≠ .reset →
    geomWritten s.nextEvent = none → commandWord s.nextEvent = none →
    t.fbu = s.fbu ∧ ∀ off, regRead off t.fbu = regRead off s.fbu

/-! ### The host's side -/

/-- 20_memory.md section 3: the GEOM value of a record's first four bytes. The spec says of it: "This rests on a
reading: the record's 16-bit fields are little-endian, like the header's size and style fields." (log entry 20). -/
def Obligations.RecordBytesGiveGeom : Prop :=
  ∀ r0 r1 r2 r3 : Byte, recordGeom r0 r1 r2 r3 = r3 ++ r2 ++ r1 ++ r0 ∧
    geomWidth (recordGeom r0 r1 r2 r3) = r1 ++ r0 ∧ geomHeight (recordGeom r0 r1 r2 r3) = r3 ++ r2

/-- 30_encoding.md R90: the pseudo-instructions' expansions. -/
def Obligations.PseudoInstructionsExpand : Prop :=
  lineEvents (.cmd .nop) = lineEvents (.wr .cmd 0x00000000#32) ∧
    lineEvents (.cmd .measure) = lineEvents (.wr .cmd 0x00000001#32) ∧
    lineEvents (.cmd .raster) = lineEvents (.wr .cmd 0x00000002#32) ∧
    lineEvents (.cmd .abort) = lineEvents (.wr .cmd 0x00000003#32) ∧
    lineEvents (.glyph 8 4) = lineEvents (.wr .geom 0x00040008#32) ∧
    lineEvents (.glyph (-1) 8) = lineEvents (.wr .geom 0x0008FFFF#32)

/-- 30_encoding.md section 6, 00_scope.md section 5: a well-formed `GLYPH w, h` followed by MEASURE latches exactly the
integers `w` and `h`. -/
def Obligations.GlyphLineLatchesItsOperands : Prop :=
  ∀ (s : State) (rest : List Event) (w h : Int), (HostLine.glyph w h).wf = true → s.fbu.phase = .idle →
    s.events = programEvents [.glyph w h, .cmd .measure] ++ rest →
    ∃ t, runSteps 2 s = .next t ∧ t.events = rest ∧ t.fbu.lw.toInt = w ∧ t.fbu.lh.toInt = h ∧ t.fbu.done = true
end

