-- ==== Sys2Proof/Laws/State.lean ====
section
/-! SUPPORT. What each update does to each field, so that no proof unfolds a record update. -/

namespace Sys2Proof.Machine

/-! ### The FBU's stored elements -/

@[simp] theorem Fbu.writeGeom_geom (v : Word) (f : Fbu) : (f.writeGeom v).geom = v := rfl
@[simp] theorem Fbu.writeGeom_lw (v : Word) (f : Fbu) : (f.writeGeom v).lw = f.lw := rfl
@[simp] theorem Fbu.writeGeom_lh (v : Word) (f : Fbu) : (f.writeGeom v).lh = f.lh := rfl
@[simp] theorem Fbu.writeGeom_phase (v : Word) (f : Fbu) : (f.writeGeom v).phase = f.phase := rfl
@[simp] theorem Fbu.writeGeom_done (v : Word) (f : Fbu) : (f.writeGeom v).done = f.done := rfl
@[simp] theorem Fbu.writeGeom_errc (v : Word) (f : Fbu) : (f.writeGeom v).errc = f.errc := rfl
@[simp] theorem Fbu.writeGeom_y (v : Word) (f : Fbu) : (f.writeGeom v).y = f.y := rfl
@[simp] theorem Fbu.writeGeom_xb (v : Word) (f : Fbu) : (f.writeGeom v).xb = f.xb := rfl
@[simp] theorem Fbu.writeGeom_j (v : Word) (f : Fbu) : (f.writeGeom v).j = f.j := rfl
@[simp] theorem Fbu.writeGeom_cb (v : Word) (f : Fbu) : (f.writeGeom v).cb = f.cb := rfl
@[simp] theorem Fbu.writeGeom_incount (v : Word) (f : Fbu) : (f.writeGeom v).incount = f.incount := rfl
@[simp] theorem Fbu.writeGeom_outcount (v : Word) (f : Fbu) : (f.writeGeom v).outcount = f.outcount := rfl

@[simp] theorem Fbu.setDone_geom (v : Bool) (f : Fbu) : (f.setDone v).geom = f.geom := rfl
@[simp] theorem Fbu.setDone_lw (v : Bool) (f : Fbu) : (f.setDone v).lw = f.lw := rfl
@[simp] theorem Fbu.setDone_lh (v : Bool) (f : Fbu) : (f.setDone v).lh = f.lh := rfl
@[simp] theorem Fbu.setDone_phase (v : Bool) (f : Fbu) : (f.setDone v).phase = f.phase := rfl
@[simp] theorem Fbu.setDone_done (v : Bool) (f : Fbu) : (f.setDone v).done = v := rfl
@[simp] theorem Fbu.setDone_errc (v : Bool) (f : Fbu) : (f.setDone v).errc = f.errc := rfl
@[simp] theorem Fbu.setDone_y (v : Bool) (f : Fbu) : (f.setDone v).y = f.y := rfl
@[simp] theorem Fbu.setDone_xb (v : Bool) (f : Fbu) : (f.setDone v).xb = f.xb := rfl
@[simp] theorem Fbu.setDone_j (v : Bool) (f : Fbu) : (f.setDone v).j = f.j := rfl
@[simp] theorem Fbu.setDone_cb (v : Bool) (f : Fbu) : (f.setDone v).cb = f.cb := rfl
@[simp] theorem Fbu.setDone_incount (v : Bool) (f : Fbu) : (f.setDone v).incount = f.incount := rfl
@[simp] theorem Fbu.setDone_outcount (v : Bool) (f : Fbu) : (f.setDone v).outcount = f.outcount := rfl

@[simp] theorem Fbu.setPhase_geom (p : Phase) (f : Fbu) : (f.setPhase p).geom = f.geom := rfl
@[simp] theorem Fbu.setPhase_lw (p : Phase) (f : Fbu) : (f.setPhase p).lw = f.lw := rfl
@[simp] theorem Fbu.setPhase_lh (p : Phase) (f : Fbu) : (f.setPhase p).lh = f.lh := rfl
@[simp] theorem Fbu.setPhase_phase (p : Phase) (f : Fbu) : (f.setPhase p).phase = p := rfl
@[simp] theorem Fbu.setPhase_done (p : Phase) (f : Fbu) : (f.setPhase p).done = f.done := rfl
@[simp] theorem Fbu.setPhase_errc (p : Phase) (f : Fbu) : (f.setPhase p).errc = f.errc := rfl
@[simp] theorem Fbu.setPhase_y (p : Phase) (f : Fbu) : (f.setPhase p).y = f.y := rfl
@[simp] theorem Fbu.setPhase_xb (p : Phase) (f : Fbu) : (f.setPhase p).xb = f.xb := rfl
@[simp] theorem Fbu.setPhase_j (p : Phase) (f : Fbu) : (f.setPhase p).j = f.j := rfl
@[simp] theorem Fbu.setPhase_cb (p : Phase) (f : Fbu) : (f.setPhase p).cb = f.cb := rfl
@[simp] theorem Fbu.setPhase_incount (p : Phase) (f : Fbu) : (f.setPhase p).incount = f.incount := rfl
@[simp] theorem Fbu.setPhase_outcount (p : Phase) (f : Fbu) : (f.setPhase p).outcount = f.outcount := rfl

@[simp] theorem Fbu.clearError_geom (f : Fbu) : f.clearError.geom = f.geom := rfl
@[simp] theorem Fbu.clearError_lw (f : Fbu) : f.clearError.lw = f.lw := rfl
@[simp] theorem Fbu.clearError_lh (f : Fbu) : f.clearError.lh = f.lh := rfl
@[simp] theorem Fbu.clearError_phase (f : Fbu) : f.clearError.phase = f.phase := rfl
@[simp] theorem Fbu.clearError_done (f : Fbu) : f.clearError.done = f.done := rfl
@[simp] theorem Fbu.clearError_errc (f : Fbu) : f.clearError.errc = .none := rfl
@[simp] theorem Fbu.clearError_y (f : Fbu) : f.clearError.y = f.y := rfl
@[simp] theorem Fbu.clearError_xb (f : Fbu) : f.clearError.xb = f.xb := rfl
@[simp] theorem Fbu.clearError_j (f : Fbu) : f.clearError.j = f.j := rfl
@[simp] theorem Fbu.clearError_cb (f : Fbu) : f.clearError.cb = f.cb := rfl
@[simp] theorem Fbu.clearError_incount (f : Fbu) : f.clearError.incount = f.incount := rfl
@[simp] theorem Fbu.clearError_outcount (f : Fbu) : f.clearError.outcount = f.outcount := rfl

@[simp] theorem Fbu.complete_geom (f : Fbu) : f.complete.geom = f.geom := rfl
@[simp] theorem Fbu.complete_lw (f : Fbu) : f.complete.lw = f.lw := rfl
@[simp] theorem Fbu.complete_lh (f : Fbu) : f.complete.lh = f.lh := rfl
@[simp] theorem Fbu.complete_phase (f : Fbu) : f.complete.phase = .idle := rfl
@[simp] theorem Fbu.complete_done (f : Fbu) : f.complete.done = true := rfl
@[simp] theorem Fbu.complete_errc (f : Fbu) : f.complete.errc = f.errc := rfl
@[simp] theorem Fbu.complete_y (f : Fbu) : f.complete.y = f.y := rfl
@[simp] theorem Fbu.complete_xb (f : Fbu) : f.complete.xb = f.xb := rfl
@[simp] theorem Fbu.complete_j (f : Fbu) : f.complete.j = f.j := rfl
@[simp] theorem Fbu.complete_cb (f : Fbu) : f.complete.cb = f.cb := rfl
@[simp] theorem Fbu.complete_incount (f : Fbu) : f.complete.incount = f.incount := rfl
@[simp] theorem Fbu.complete_outcount (f : Fbu) : f.complete.outcount = f.outcount := rfl

@[simp] theorem Fbu.loadPayload_geom (p : Byte) (f : Fbu) : (f.loadPayload p).geom = f.geom := rfl
@[simp] theorem Fbu.loadPayload_lw (p : Byte) (f : Fbu) : (f.loadPayload p).lw = f.lw := rfl
@[simp] theorem Fbu.loadPayload_lh (p : Byte) (f : Fbu) : (f.loadPayload p).lh = f.lh := rfl
@[simp] theorem Fbu.loadPayload_phase (p : Byte) (f : Fbu) : (f.loadPayload p).phase = .emit := rfl
@[simp] theorem Fbu.loadPayload_done (p : Byte) (f : Fbu) : (f.loadPayload p).done = f.done := rfl
@[simp] theorem Fbu.loadPayload_errc (p : Byte) (f : Fbu) : (f.loadPayload p).errc = f.errc := rfl
@[simp] theorem Fbu.loadPayload_y (p : Byte) (f : Fbu) : (f.loadPayload p).y = f.y := rfl
@[simp] theorem Fbu.loadPayload_xb (p : Byte) (f : Fbu) : (f.loadPayload p).xb = f.xb := rfl
@[simp] theorem Fbu.loadPayload_j (p : Byte) (f : Fbu) : (f.loadPayload p).j = f.j := rfl
@[simp] theorem Fbu.loadPayload_cb (p : Byte) (f : Fbu) : (f.loadPayload p).cb = p := rfl
@[simp] theorem Fbu.loadPayload_incount (p : Byte) (f : Fbu) : (f.loadPayload p).incount = f.incount + 1 := rfl
@[simp] theorem Fbu.loadPayload_outcount (p : Byte) (f : Fbu) : (f.loadPayload p).outcount = f.outcount := rfl

@[simp] theorem Fbu.loadSlot_geom (f : Fbu) : f.loadSlot.geom = f.geom := rfl
@[simp] theorem Fbu.loadSlot_lw (f : Fbu) : f.loadSlot.lw = f.lw := rfl
@[simp] theorem Fbu.loadSlot_lh (f : Fbu) : f.loadSlot.lh = f.lh := rfl
@[simp] theorem Fbu.loadSlot_phase (f : Fbu) : f.loadSlot.phase = .emit := rfl
@[simp] theorem Fbu.loadSlot_done (f : Fbu) : f.loadSlot.done = f.done := rfl
@[simp] theorem Fbu.loadSlot_errc (f : Fbu) : f.loadSlot.errc = f.errc := rfl
@[simp] theorem Fbu.loadSlot_y (f : Fbu) : f.loadSlot.y = f.y := rfl
@[simp] theorem Fbu.loadSlot_xb (f : Fbu) : f.loadSlot.xb = f.xb := rfl
@[simp] theorem Fbu.loadSlot_j (f : Fbu) : f.loadSlot.j = f.j := rfl
@[simp] theorem Fbu.loadSlot_cb (f : Fbu) : f.loadSlot.cb = 0 := rfl
@[simp] theorem Fbu.loadSlot_incount (f : Fbu) : f.loadSlot.incount = f.incount := rfl
@[simp] theorem Fbu.loadSlot_outcount (f : Fbu) : f.loadSlot.outcount = f.outcount := rfl

@[simp] theorem Fbu.countBeat_geom (f : Fbu) : f.countBeat.geom = f.geom := rfl
@[simp] theorem Fbu.countBeat_lw (f : Fbu) : f.countBeat.lw = f.lw := rfl
@[simp] theorem Fbu.countBeat_lh (f : Fbu) : f.countBeat.lh = f.lh := rfl
@[simp] theorem Fbu.countBeat_phase (f : Fbu) : f.countBeat.phase = f.phase := rfl
@[simp] theorem Fbu.countBeat_done (f : Fbu) : f.countBeat.done = f.done := rfl
@[simp] theorem Fbu.countBeat_errc (f : Fbu) : f.countBeat.errc = f.errc := rfl
@[simp] theorem Fbu.countBeat_y (f : Fbu) : f.countBeat.y = f.y := rfl
@[simp] theorem Fbu.countBeat_xb (f : Fbu) : f.countBeat.xb = f.xb := rfl
@[simp] theorem Fbu.countBeat_j (f : Fbu) : f.countBeat.j = f.j := rfl
@[simp] theorem Fbu.countBeat_cb (f : Fbu) : f.countBeat.cb = f.cb := rfl
@[simp] theorem Fbu.countBeat_incount (f : Fbu) : f.countBeat.incount = f.incount := rfl
@[simp] theorem Fbu.countBeat_outcount (f : Fbu) : f.countBeat.outcount = f.outcount + 1 := rfl

@[simp] theorem Fbu.nextBit_geom (f : Fbu) : f.nextBit.geom = f.geom := rfl
@[simp] theorem Fbu.nextBit_lw (f : Fbu) : f.nextBit.lw = f.lw := rfl
@[simp] theorem Fbu.nextBit_lh (f : Fbu) : f.nextBit.lh = f.lh := rfl
@[simp] theorem Fbu.nextBit_phase (f : Fbu) : f.nextBit.phase = f.phase := rfl
@[simp] theorem Fbu.nextBit_done (f : Fbu) : f.nextBit.done = f.done := rfl
@[simp] theorem Fbu.nextBit_errc (f : Fbu) : f.nextBit.errc = f.errc := rfl
@[simp] theorem Fbu.nextBit_y (f : Fbu) : f.nextBit.y = f.y := rfl
@[simp] theorem Fbu.nextBit_xb (f : Fbu) : f.nextBit.xb = f.xb := rfl
@[simp] theorem Fbu.nextBit_j (f : Fbu) : f.nextBit.j = f.j + 1 := rfl
@[simp] theorem Fbu.nextBit_cb (f : Fbu) : f.nextBit.cb = f.cb := rfl
@[simp] theorem Fbu.nextBit_incount (f : Fbu) : f.nextBit.incount = f.incount := rfl
@[simp] theorem Fbu.nextBit_outcount (f : Fbu) : f.nextBit.outcount = f.outcount := rfl

@[simp] theorem Fbu.latch_geom (f : Fbu) : f.latch.geom = f.geom := rfl
@[simp] theorem Fbu.latch_lw (f : Fbu) : f.latch.lw = geomWidth f.geom := rfl
@[simp] theorem Fbu.latch_lh (f : Fbu) : f.latch.lh = geomHeight f.geom := rfl
@[simp] theorem Fbu.latch_phase (f : Fbu) : f.latch.phase = f.phase := rfl
@[simp] theorem Fbu.latch_done (f : Fbu) : f.latch.done = f.done := rfl
@[simp] theorem Fbu.latch_errc (f : Fbu) : f.latch.errc = f.errc := rfl
@[simp] theorem Fbu.latch_y (f : Fbu) : f.latch.y = 0 := rfl
@[simp] theorem Fbu.latch_xb (f : Fbu) : f.latch.xb = 0 := rfl
@[simp] theorem Fbu.latch_j (f : Fbu) : f.latch.j = 0 := rfl
@[simp] theorem Fbu.latch_cb (f : Fbu) : f.latch.cb = 0 := rfl
@[simp] theorem Fbu.latch_incount (f : Fbu) : f.latch.incount = 0 := rfl
@[simp] theorem Fbu.latch_outcount (f : Fbu) : f.latch.outcount = 0 := rfl

@[simp] theorem Fbu.recordError_geom (c : ErrCause) (f : Fbu) : (f.recordError c).geom = f.geom := by
  unfold Fbu.recordError; split <;> rfl
@[simp] theorem Fbu.recordError_lw (c : ErrCause) (f : Fbu) : (f.recordError c).lw = f.lw := by
  unfold Fbu.recordError; split <;> rfl
@[simp] theorem Fbu.recordError_lh (c : ErrCause) (f : Fbu) : (f.recordError c).lh = f.lh := by
  unfold Fbu.recordError; split <;> rfl
@[simp] theorem Fbu.recordError_phase (c : ErrCause) (f : Fbu) : (f.recordError c).phase = f.phase := by
  unfold Fbu.recordError; split <;> rfl
@[simp] theorem Fbu.recordError_done (c : ErrCause) (f : Fbu) : (f.recordError c).done = f.done := by
  unfold Fbu.recordError; split <;> rfl
@[simp] theorem Fbu.recordError_y (c : ErrCause) (f : Fbu) : (f.recordError c).y = f.y := by
  unfold Fbu.recordError; split <;> rfl
@[simp] theorem Fbu.recordError_xb (c : ErrCause) (f : Fbu) : (f.recordError c).xb = f.xb := by
  unfold Fbu.recordError; split <;> rfl
@[simp] theorem Fbu.recordError_j (c : ErrCause) (f : Fbu) : (f.recordError c).j = f.j := by
  unfold Fbu.recordError; split <;> rfl
@[simp] theorem Fbu.recordError_cb (c : ErrCause) (f : Fbu) : (f.recordError c).cb = f.cb := by
  unfold Fbu.recordError; split <;> rfl
@[simp] theorem Fbu.recordError_incount (c : ErrCause) (f : Fbu) : (f.recordError c).incount = f.incount := by
  unfold Fbu.recordError; split <;> rfl
@[simp] theorem Fbu.recordError_outcount (c : ErrCause) (f : Fbu) : (f.recordError c).outcount = f.outcount := by
  unfold Fbu.recordError; split <;> rfl

@[simp] theorem Fbu.nextByte_geom (f : Fbu) : f.nextByte.geom = f.geom := by
  unfold Fbu.nextByte; split <;> rfl
@[simp] theorem Fbu.nextByte_lw (f : Fbu) : f.nextByte.lw = f.lw := by
  unfold Fbu.nextByte; split <;> rfl
@[simp] theorem Fbu.nextByte_lh (f : Fbu) : f.nextByte.lh = f.lh := by
  unfold Fbu.nextByte; split <;> rfl
@[simp] theorem Fbu.nextByte_phase (f : Fbu) : f.nextByte.phase = f.phase := by
  unfold Fbu.nextByte; split <;> rfl
@[simp] theorem Fbu.nextByte_done (f : Fbu) : f.nextByte.done = f.done := by
  unfold Fbu.nextByte; split <;> rfl
@[simp] theorem Fbu.nextByte_errc (f : Fbu) : f.nextByte.errc = f.errc := by
  unfold Fbu.nextByte; split <;> rfl
@[simp] theorem Fbu.nextByte_cb (f : Fbu) : f.nextByte.cb = f.cb := by
  unfold Fbu.nextByte; split <;> rfl
@[simp] theorem Fbu.nextByte_incount (f : Fbu) : f.nextByte.incount = f.incount := by
  unfold Fbu.nextByte; split <;> rfl
@[simp] theorem Fbu.nextByte_outcount (f : Fbu) : f.nextByte.outcount = f.outcount := by
  unfold Fbu.nextByte; split <;> rfl
@[simp] theorem Fbu.nextByte_j (f : Fbu) : f.nextByte.j = 0 := by
  unfold Fbu.nextByte; split <;> rfl

@[simp] theorem Fbu.endByte_geom (f : Fbu) : f.endByte.geom = f.geom := by
  unfold Fbu.endByte; split <;> rfl
@[simp] theorem Fbu.endByte_lw (f : Fbu) : f.endByte.lw = f.lw := by
  unfold Fbu.endByte; split <;> rfl
@[simp] theorem Fbu.endByte_lh (f : Fbu) : f.endByte.lh = f.lh := by
  unfold Fbu.endByte; split <;> rfl
@[simp] theorem Fbu.endByte_errc (f : Fbu) : f.endByte.errc = f.errc := by
  unfold Fbu.endByte; split <;> rfl
@[simp] theorem Fbu.endByte_y (f : Fbu) : f.endByte.y = f.y := by
  unfold Fbu.endByte; split <;> rfl
@[simp] theorem Fbu.endByte_xb (f : Fbu) : f.endByte.xb = f.xb := by
  unfold Fbu.endByte; split <;> rfl
@[simp] theorem Fbu.endByte_j (f : Fbu) : f.endByte.j = f.j := by
  unfold Fbu.endByte; split <;> rfl
@[simp] theorem Fbu.endByte_cb (f : Fbu) : f.endByte.cb = f.cb := by
  unfold Fbu.endByte; split <;> rfl
@[simp] theorem Fbu.endByte_incount (f : Fbu) : f.endByte.incount = f.incount := by
  unfold Fbu.endByte; split <;> rfl
@[simp] theorem Fbu.endByte_outcount (f : Fbu) : f.endByte.outcount = f.outcount := by
  unfold Fbu.endByte; split <;> rfl

@[simp] theorem Fbu.afterBeat_geom (f : Fbu) : f.afterBeat.geom = f.geom := by
  unfold Fbu.afterBeat; split <;> simp
@[simp] theorem Fbu.afterBeat_lw (f : Fbu) : f.afterBeat.lw = f.lw := by
  unfold Fbu.afterBeat; split <;> simp
@[simp] theorem Fbu.afterBeat_lh (f : Fbu) : f.afterBeat.lh = f.lh := by
  unfold Fbu.afterBeat; split <;> simp
@[simp] theorem Fbu.afterBeat_errc (f : Fbu) : f.afterBeat.errc = f.errc := by
  unfold Fbu.afterBeat; split <;> simp
@[simp] theorem Fbu.afterBeat_cb (f : Fbu) : f.afterBeat.cb = f.cb := by
  unfold Fbu.afterBeat; split <;> simp
@[simp] theorem Fbu.afterBeat_incount (f : Fbu) : f.afterBeat.incount = f.incount := by
  unfold Fbu.afterBeat; split <;> simp
@[simp] theorem Fbu.afterBeat_outcount (f : Fbu) : f.afterBeat.outcount = f.outcount + 1 := by
  unfold Fbu.afterBeat; split <;> simp

@[simp] theorem Fbu.afterReset_eq (f : Fbu) : f.afterReset = Fbu.reset := rfl

@[simp] theorem Fbu.startRaster_geom (f : Fbu) : f.startRaster.geom = f.geom := by
  unfold Fbu.startRaster; split <;> simp
@[simp] theorem Fbu.startRaster_errc (f : Fbu) : f.startRaster.errc = f.errc := by
  unfold Fbu.startRaster; split <;> simp
@[simp] theorem Fbu.startRaster_lw (f : Fbu) : f.startRaster.lw = geomWidth f.geom := by
  unfold Fbu.startRaster; split <;> simp
@[simp] theorem Fbu.startRaster_lh (f : Fbu) : f.startRaster.lh = geomHeight f.geom := by
  unfold Fbu.startRaster; split <;> simp
@[simp] theorem Fbu.startRaster_incount (f : Fbu) : f.startRaster.incount = 0 := by
  unfold Fbu.startRaster; split <;> simp
@[simp] theorem Fbu.startRaster_outcount (f : Fbu) : f.startRaster.outcount = 0 := by
  unfold Fbu.startRaster; split <;> simp
@[simp] theorem Fbu.startRaster_y (f : Fbu) : f.startRaster.y = 0 := by
  unfold Fbu.startRaster; split <;> simp
@[simp] theorem Fbu.startRaster_xb (f : Fbu) : f.startRaster.xb = 0 := by
  unfold Fbu.startRaster; split <;> simp
@[simp] theorem Fbu.startRaster_j (f : Fbu) : f.startRaster.j = 0 := by
  unfold Fbu.startRaster; split <;> simp
@[simp] theorem Fbu.startRaster_cb (f : Fbu) : f.startRaster.cb = 0 := by
  unfold Fbu.startRaster; split <;> simp

/-! ### The machine -/

@[simp] theorem State.withFbu_fbu (g : Fbu) (s : State) : (s.withFbu g).fbu = g := rfl
@[simp] theorem State.withFbu_inStream (g : Fbu) (s : State) : (s.withFbu g).inStream = s.inStream := rfl
@[simp] theorem State.withFbu_outStream (g : Fbu) (s : State) : (s.withFbu g).outStream = s.outStream := rfl
@[simp] theorem State.withFbu_sinkReady (g : Fbu) (s : State) : (s.withFbu g).sinkReady = s.sinkReady := rfl
@[simp] theorem State.withFbu_response (g : Fbu) (s : State) : (s.withFbu g).response = s.response := rfl
@[simp] theorem State.withFbu_events (g : Fbu) (s : State) : (s.withFbu g).events = s.events := rfl
@[simp] theorem State.withFbu_draws (g : Fbu) (s : State) : (s.withFbu g).draws = s.draws := rfl

@[simp] theorem State.respond_fbu (r : Response) (s : State) : (s.respond r).fbu = s.fbu := rfl
@[simp] theorem State.respond_inStream (r : Response) (s : State) : (s.respond r).inStream = s.inStream := rfl
@[simp] theorem State.respond_outStream (r : Response) (s : State) : (s.respond r).outStream = s.outStream := rfl
@[simp] theorem State.respond_sinkReady (r : Response) (s : State) : (s.respond r).sinkReady = s.sinkReady := rfl
@[simp] theorem State.respond_response (r : Response) (s : State) : (s.respond r).response = r := rfl
@[simp] theorem State.respond_events (r : Response) (s : State) : (s.respond r).events = s.events := rfl
@[simp] theorem State.respond_draws (r : Response) (s : State) : (s.respond r).draws = s.draws := rfl

@[simp] theorem State.withEvents_fbu (es : List Event) (s : State) : (s.withEvents es).fbu = s.fbu := rfl
@[simp] theorem State.withEvents_inStream (es : List Event) (s : State) : (s.withEvents es).inStream = s.inStream := rfl
@[simp] theorem State.withEvents_outStream (es : List Event) (s : State) : (s.withEvents es).outStream = s.outStream := rfl
@[simp] theorem State.withEvents_sinkReady (es : List Event) (s : State) : (s.withEvents es).sinkReady = s.sinkReady := rfl
@[simp] theorem State.withEvents_response (es : List Event) (s : State) : (s.withEvents es).response = s.response := rfl
@[simp] theorem State.withEvents_events (es : List Event) (s : State) : (s.withEvents es).events = es := rfl
@[simp] theorem State.withEvents_draws (es : List Event) (s : State) : (s.withEvents es).draws = s.draws := rfl

@[simp] theorem State.countDraw_fbu (s : State) : s.countDraw.fbu = s.fbu := rfl
@[simp] theorem State.countDraw_inStream (s : State) : s.countDraw.inStream = s.inStream := rfl
@[simp] theorem State.countDraw_outStream (s : State) : s.countDraw.outStream = s.outStream := rfl
@[simp] theorem State.countDraw_sinkReady (s : State) : s.countDraw.sinkReady = s.sinkReady := rfl
@[simp] theorem State.countDraw_response (s : State) : s.countDraw.response = s.response := rfl
@[simp] theorem State.countDraw_events (s : State) : s.countDraw.events = s.events := rfl
@[simp] theorem State.countDraw_draws (s : State) : s.countDraw.draws = s.draws + 1 := rfl

@[simp] theorem State.offer_fbu (b : Byte) (s : State) : (s.offer b).fbu = s.fbu := rfl
@[simp] theorem State.offer_inStream (b : Byte) (s : State) : (s.offer b).inStream = s.inStream ++ [b] := rfl
@[simp] theorem State.offer_outStream (b : Byte) (s : State) : (s.offer b).outStream = s.outStream := rfl
@[simp] theorem State.offer_sinkReady (b : Byte) (s : State) : (s.offer b).sinkReady = s.sinkReady := rfl
@[simp] theorem State.offer_response (b : Byte) (s : State) : (s.offer b).response = s.response := rfl
@[simp] theorem State.offer_events (b : Byte) (s : State) : (s.offer b).events = s.events := rfl
@[simp] theorem State.offer_draws (b : Byte) (s : State) : (s.offer b).draws = s.draws := rfl

@[simp] theorem State.setSink_fbu (r : Bool) (s : State) : (s.setSink r).fbu = s.fbu := rfl
@[simp] theorem State.setSink_inStream (r : Bool) (s : State) : (s.setSink r).inStream = s.inStream := rfl
@[simp] theorem State.setSink_outStream (r : Bool) (s : State) : (s.setSink r).outStream = s.outStream := rfl
@[simp] theorem State.setSink_sinkReady (r : Bool) (s : State) : (s.setSink r).sinkReady = r := rfl
@[simp] theorem State.setSink_response (r : Bool) (s : State) : (s.setSink r).response = s.response := rfl
@[simp] theorem State.setSink_events (r : Bool) (s : State) : (s.setSink r).events = s.events := rfl
@[simp] theorem State.setSink_draws (r : Bool) (s : State) : (s.setSink r).draws = s.draws := rfl

@[simp] theorem State.resetEvent_fbu (s : State) : s.resetEvent.fbu = Fbu.reset := rfl
@[simp] theorem State.resetEvent_inStream (s : State) : s.resetEvent.inStream = s.inStream := rfl
@[simp] theorem State.resetEvent_outStream (s : State) : s.resetEvent.outStream = s.outStream := rfl
@[simp] theorem State.resetEvent_sinkReady (s : State) : s.resetEvent.sinkReady = s.sinkReady := rfl
@[simp] theorem State.resetEvent_response (s : State) : s.resetEvent.response = s.response := rfl
@[simp] theorem State.resetEvent_events (s : State) : s.resetEvent.events = s.events := rfl
@[simp] theorem State.resetEvent_draws (s : State) : s.resetEvent.draws = s.draws := rfl

@[simp] theorem State.takeEvent_fbu (s : State) : s.takeEvent.fbu = s.fbu := by
  unfold State.takeEvent; split <;> rfl
@[simp] theorem State.takeEvent_inStream (s : State) : s.takeEvent.inStream = s.inStream := by
  unfold State.takeEvent; split <;> rfl
@[simp] theorem State.takeEvent_outStream (s : State) : s.takeEvent.outStream = s.outStream := by
  unfold State.takeEvent; split <;> rfl
@[simp] theorem State.takeEvent_sinkReady (s : State) : s.takeEvent.sinkReady = s.sinkReady := by
  unfold State.takeEvent; split <;> rfl
@[simp] theorem State.takeEvent_response (s : State) : s.takeEvent.response = s.response := by
  unfold State.takeEvent; split <;> rfl
@[simp] theorem State.takeEvent_events (s : State) : s.takeEvent.events = s.events.tail := by
  unfold State.takeEvent; split <;> simp [*]

theorem State.nextEvent_of_events {s : State} {e : Event} {rest : List Event} (h : s.events = e :: rest) :
    s.nextEvent = e := by
  simp [State.nextEvent, h]

theorem State.takeEvent_of_events {s : State} {e : Event} {rest : List Event} (h : s.events = e :: rest) :
    s.takeEvent = s.withEvents rest := by
  simp [State.takeEvent, h]

theorem State.nextEvent_of_free {s : State} (h : s.events = []) :
    s.nextEvent = Config.freeEvent s.draws := by
  simp [State.nextEvent, h]

theorem State.takeEvent_of_free {s : State} (h : s.events = []) : s.takeEvent = s.countDraw := by
  simp [State.takeEvent, h]

end Sys2Proof.Machine
end

