-- ==== Sys2Proof/Laws/Geometry.lean ====
section
/-! SUPPORT. The geometry functions, each unfolded once: what they are for an empty glyph, for a non-empty one, and how
large they are (40_geometry.md R101 to R107). -/

namespace Sys2Proof.Machine

theorem sext16_le (v : Half) : sext16 v ≤ 32767 := by
  unfold sext16; split <;> omega

theorem neg_le_sext16 (v : Half) : -32768 ≤ sext16 v := by
  unfold sext16; split <;> omega

theorem logicalWidth_le (lw : Half) : logicalWidth lw ≤ 32767 := by
  have := sext16_le lw
  unfold logicalWidth; omega

theorem logicalHeight_le (lh : Half) : logicalHeight lh ≤ 32767 := by
  have := sext16_le lh
  unfold logicalHeight; omega

theorem isEmpty_eq_true_iff (lw lh : Half) : isEmpty lw lh = true ↔ sext16 lw ≤ 0 ∨ sext16 lh ≤ 0 := by
  simp [isEmpty]

theorem isEmpty_eq_false_iff (lw lh : Half) :
    isEmpty lw lh = false ↔ 0 < logicalWidth lw ∧ 0 < logicalHeight lh := by
  have := isEmpty_eq_true_iff lw lh
  rw [← Bool.not_eq_true, this]
  unfold logicalWidth logicalHeight
  omega

section Empty
variable {lw lh : Half} (h : isEmpty lw lh = true)
include h

theorem rowBytes_of_isEmpty : rowBytes lw lh = 0 := by simp [rowBytes, h]
theorem payloadSize_of_isEmpty : payloadSize lw lh = 0 := by simp [payloadSize, h]
theorem rasterWidth_of_isEmpty : rasterWidth lw lh = 0 := by simp [rasterWidth, h]
theorem rasterHeight_of_isEmpty : rasterHeight lw lh = 0 := by simp [rasterHeight, h]

end Empty

section NonEmpty
variable {lw lh : Half} (h : isEmpty lw lh = false)
include h

theorem rowBytes_of_not_isEmpty : rowBytes lw lh = (logicalWidth lw + 7) / 8 := by
  simp [rowBytes, ceilDiv, h]

theorem payloadSize_of_not_isEmpty : payloadSize lw lh = 4 * ((dataBytes lw lh + 3) / 4) := by
  simp [payloadSize, roundUp, ceilDiv, h]

theorem rasterWidth_of_not_isEmpty : rasterWidth lw lh = 8 * ((logicalWidth lw + 7) / 8) := by
  simp [rasterWidth, roundUp, ceilDiv, h]

theorem rasterHeight_of_not_isEmpty : rasterHeight lw lh = 4 * ((logicalHeight lh + 3) / 4) := by
  simp [rasterHeight, roundUp, ceilDiv, h]

theorem rowBytes_pos : 0 < rowBytes lw lh := by
  have := (isEmpty_eq_false_iff lw lh).1 h
  rw [rowBytes_of_not_isEmpty h]; omega

theorem dataBytes_pos : 0 < dataBytes lw lh :=
  Nat.mul_pos ((isEmpty_eq_false_iff lw lh).1 h).2 (rowBytes_pos h)

theorem payloadSize_pos : 0 < payloadSize lw lh := by
  have := dataBytes_pos h
  rw [payloadSize_of_not_isEmpty h]; omega

theorem rasterHeight_pos : 0 < rasterHeight lw lh := by
  have := (isEmpty_eq_false_iff lw lh).1 h
  rw [rasterHeight_of_not_isEmpty h]; omega

theorem logicalHeight_le_rasterHeight : logicalHeight lh ≤ rasterHeight lw lh := by
  rw [rasterHeight_of_not_isEmpty h]; omega

end NonEmpty

theorem rasterWidth_eq (lw lh : Half) : rasterWidth lw lh = 8 * rowBytes lw lh := by
  cases h : isEmpty lw lh
  · rw [rasterWidth_of_not_isEmpty h, rowBytes_of_not_isEmpty h]
  · rw [rasterWidth_of_isEmpty h, rowBytes_of_isEmpty h]

theorem rowBytes_le (lw lh : Half) : rowBytes lw lh ≤ 4096 := by
  cases h : isEmpty lw lh
  · have := logicalWidth_le lw
    rw [rowBytes_of_not_isEmpty h]; omega
  · simp [rowBytes_of_isEmpty h]

theorem rasterHeight_le (lw lh : Half) : rasterHeight lw lh ≤ 32768 := by
  cases h : isEmpty lw lh
  · have := logicalHeight_le lh
    rw [rasterHeight_of_not_isEmpty h]; omega
  · simp [rasterHeight_of_isEmpty h]

theorem dataBytes_le (lw lh : Half) : dataBytes lw lh ≤ 134213632 :=
  (Nat.mul_le_mul (logicalHeight_le lh) (rowBytes_le lw lh)).trans (by decide)

theorem gridBytes_le (lw lh : Half) : gridBytes lw lh ≤ 2 ^ 27 :=
  (Nat.mul_le_mul (rasterHeight_le lw lh) (rowBytes_le lw lh)).trans (by decide)

theorem payloadSize_le (lw lh : Half) : payloadSize lw lh ≤ 134213632 := by
  cases h : isEmpty lw lh
  · have := dataBytes_le lw lh
    rw [payloadSize_of_not_isEmpty h]; omega
  · simp [payloadSize_of_isEmpty h]

theorem payloadSize_eq_zero_iff (lw lh : Half) : payloadSize lw lh = 0 ↔ isEmpty lw lh = true := by
  cases h : isEmpty lw lh
  · have := payloadSize_pos h
    simp; omega
  · simp [payloadSize_of_isEmpty h]

theorem gridBytes_eq_zero_of_isEmpty {lw lh : Half} (h : isEmpty lw lh = true) : gridBytes lw lh = 0 := by
  simp [gridBytes, rowBytes_of_isEmpty h]

theorem dataBytes_le_payloadSize (lw lh : Half) : dataBytes lw lh ≤ payloadSize lw lh := by
  cases h : isEmpty lw lh
  · rw [payloadSize_of_not_isEmpty h]; omega
  · simp [dataBytes, rowBytes_of_isEmpty h]

/-- The grid has at least as many byte positions as the payload has bytes: `H * RB` is a multiple of 4 that is at
least `h * RB`. -/
theorem payloadSize_le_gridBytes (lw lh : Half) : payloadSize lw lh ≤ gridBytes lw lh := by
  cases h : isEmpty lw lh
  · have hd : dataBytes lw lh ≤ gridBytes lw lh :=
      Nat.mul_le_mul_right _ (logicalHeight_le_rasterHeight h)
    have h4 : gridBytes lw lh = 4 * ((logicalHeight lh + 3) / 4 * rowBytes lw lh) := by
      rw [gridBytes, rasterHeight_of_not_isEmpty h, Nat.mul_assoc]
    rw [payloadSize_of_not_isEmpty h]; omega
  · simp [payloadSize_of_isEmpty h]

theorem jobLength_eq (lw lh : Half) : jobLength lw lh = 8 * gridBytes lw lh := by
  rw [jobLength, gridBytes, rasterWidth_eq, Nat.mul_assoc, Nat.mul_comm (rowBytes lw lh)]

theorem jobLength_le (lw lh : Half) : jobLength lw lh ≤ 2 ^ 30 := by
  have := gridBytes_le lw lh
  rw [jobLength_eq]; omega

end Sys2Proof.Machine
end

