-- ==== Sys2Proof/Laws/Effect.lean ====
section
/-! SUPPORT. Said once: what each event does to the machine, as a total function, with the equation that the step
answers exactly that. Proofs about steps cite `step_eq` and the cases of `stepState` instead of unfolding `step`. -/

namespace Sys2Proof.Machine

/-- What an accepted or rejected command does to the FBU. -/
def commandFbu (w : Word) (f : Fbu) : Fbu :=
  match decode w with
  | .error _ => f.recordError .rsvd
  | .ok .nop => f
  | .ok .measure => if f.phase = .idle then f.latch.setDone true else f.recordError .busy
  | .ok .raster => if f.phase = .idle then f.startRaster else f.recordError .busy
  | .ok .abort => ((f.setPhase .idle).setDone false).clearError

/-- What a window access does to the FBU. -/
def accessFbu (a : Access) (f : Fbu) : Fbu :=
  match accessWrites .geom a with
  | some v => f.writeGeom v
  | none =>
    match accessWrites .cmd a with
    | some w => commandFbu w f
    | none => f

/-- What a window access answers. -/
def accessResponse (a : Access) (f : Fbu) : Response :=
  if a.wf then
    match a.kind with
    | .read => .data (regRead a.off f)
    | .fetch => .data (regRead a.off f)
    | .write _ => .written
  else .busError a.off a.width

/-- What an event does to the machine. -/
def eventState (e : Event) (s : State) : State :=
  match e with
  | .host a => (s.respond (accessResponse a s.fbu)).withFbu (accessFbu a s.fbu)
  | .bus a =>
    match windowOffset a.off with
    | some off => (s.respond (accessResponse { a with off := off } s.fbu)).withFbu (accessFbu { a with off := off } s.fbu)
    | none => s.respond (.notReached a.off)
  | .fbu => fbuTurn s
  | .offer b => s.offer b
  | .sink r => s.setSink r
  | .reset => s.resetEvent

/-- The machine after a step. -/
def stepState (s : State) : State := eventState s.nextEvent s.takeEvent

@[simp] theorem State.withFbu_fbu_self (s : State) : s.withFbu s.fbu = s := rfl

@[simp] theorem State.withFbu_withFbu (s : State) (f g : Fbu) : (s.withFbu f).withFbu g = s.withFbu g := rfl

theorem accessOk_eq_wf (a : Access) : accessOk a = a.wf := by
  unfold accessOk Access.wf
  by_cases h : a.width = 32 <;> by_cases h' : a.off % 4 = 0 <;> simp [h, h']

theorem accessOk_iff (a : Access) : accessOk a = true ↔ a.width = 32 ∧ a.off % 4 = 0 ∧ a.off ≤ 0x3C := by
  rw [accessOk_eq_wf]; simp [Access.wf]

/-- A step handles the first fixed event. -/
theorem step_of_events {s : State} {e : Event} {rest : List Event} (h : s.events = e :: rest) :
    step s = handleEvent e (s.withEvents rest) := by
  unfold step nextStep
  rw [State.nextEvent_of_events h, State.takeEvent_of_events h]

/-- A step handles the free event when none is fixed. -/
theorem step_of_free {s : State} (h : s.events = []) : step s = handleEvent (Config.freeEvent s.draws) s.countDraw := by
  unfold step nextStep
  rw [State.nextEvent_of_free h, State.takeEvent_of_free h]

/-- The host's write of a command word is the command, answered as written. -/
theorem handleEvent_commandEvent (w : Word) (s : State) :
    handleEvent (commandEvent w) s = command w (s.respond .written) := by
  have h : accessOk { off := 0x04, width := 32, kind := .write w } = true := (accessOk_iff _).2 (by simp)
  simp only [handleEvent, commandEvent, regOffset, regAccess, h]
  rfl

/-- The offset of a register is that register's and no other's. -/
theorem regAt_eq_some_iff (off : Nat) (r : Reg) : regAt off = some r ↔ off = regOffset r := by
  constructor
  · intro h
    unfold regAt at h
    split at h <;> first | (injection h with h; subst h; rfl) | cases h
  · rintro rfl; cases r <;> rfl

theorem regAt_regOffset (r : Reg) : regAt (regOffset r) = some r := (regAt_eq_some_iff _ r).2 rfl

theorem exec_eq (i : Instr) (s : State) : exec i s = .next (s.withFbu (commandFbu (encode i) s.fbu)) := by
  cases i
  · rfl
  · show execMeasure s = _
    unfold execMeasure
    split <;> rename_i h <;> simp [commandFbu, show decode (encode .measure) = .ok .measure from rfl, h]
  · show execRaster s = _
    unfold execRaster
    split <;> rename_i h <;> simp [commandFbu, show decode (encode .raster) = .ok .raster from rfl, h]
  · rfl

theorem decode_encode_eq (i : Instr) : decode (encode i) = .ok i := by cases i <;> rfl

theorem commandFbu_of_ok {w : Word} {i : Instr} (h : decode w = .ok i) (f : Fbu) :
    commandFbu w f = commandFbu (encode i) f := by
  simp [commandFbu, h, decode_encode_eq]

theorem command_eq (w : Word) (s : State) : command w s = .next (s.withFbu (commandFbu w s.fbu)) := by
  unfold command
  split
  · next h => simp [rejectReserved, commandFbu, h]
  · next i h => rw [exec_eq, commandFbu_of_ok h]

theorem regAccess_eq (a : Access) (s : State) :
    regAccess a s = .next ((s.respond (accessResponse a s.fbu)).withFbu (accessFbu a s.fbu)) := by
  unfold regAccess accessResponse
  rw [accessOk_eq_wf]
  cases hwf : a.wf
  · have : accessFbu a s.fbu = s.fbu := by
      unfold accessFbu accessWrites
      cases a.kind <;> simp [hwf]
    simp [this]; rfl
  · cases hk : a.kind with
    | read => simp [accessFbu, accessWrites, hk]; rfl
    | fetch => simp [accessFbu, accessWrites, hk]; rfl
    | write v =>
      simp only [if_true, regWrite]
      split
      · next h =>
        rw [regAt_eq_some_iff] at h
        simp [accessFbu, accessWrites, hk, hwf, h]
      · next h =>
        rw [regAt_eq_some_iff] at h
        simp [accessFbu, accessWrites, hk, hwf, h, command_eq, regOffset]
      · next hg hc =>
        have hg' : a.off ≠ regOffset .geom := fun h => hg ((regAt_eq_some_iff _ _).2 h)
        have hc' : a.off ≠ regOffset .cmd := fun h => hc ((regAt_eq_some_iff _ _).2 h)
        simp [accessFbu, accessWrites, hk, hwf, hg', hc']
        rfl

/-- Every event answers a next state, and which one. -/
theorem handleEvent_eq (e : Event) (s : State) : handleEvent e s = .next (eventState e s) := by
  cases e with
  | host a => exact regAccess_eq a s
  | bus a =>
    simp only [handleEvent, busAccess, eventState]
    cases windowOffset a.off with
    | some off => exact regAccess_eq _ s
    | none => rfl
  | _ => rfl

/-- Every step answers a next state, and which one. -/
theorem step_eq (s : State) : step s = .next (stepState s) := handleEvent_eq _ _

theorem step_next_iff (s t : State) : step s = .next t ↔ t = stepState s := by
  rw [step_eq]
  exact ⟨fun h => by injection h with h; exact h.symm, fun h => by rw [h]⟩

/-- What an event does to the FBU, when it is not the FBU's turn and not a reset: a GEOM write, a command, or
nothing. -/
theorem eventState_fbu_of_access {e : Event} (h1 : e ≠ .fbu) (h2 : e ≠ .reset) (s : State) :
    (eventState e s).fbu =
      match geomWritten e with
      | some v => s.fbu.writeGeom v
      | none =>
        match commandWord e with
        | some w => commandFbu w s.fbu
        | none => s.fbu := by
  cases e with
  | host a => rfl
  | bus a =>
    simp only [eventState, geomWritten, commandWord, windowAccess]
    cases windowOffset a.off <;> rfl
  | fbu => exact absurd rfl h1
  | reset => exact absurd rfl h2
  | offer b => rfl
  | sink r => rfl

/-- No word is written to both GEOM and CMD. -/
theorem commandWord_of_geomWritten {e : Event} {v : Word} (h : geomWritten e = some v) : commandWord e = none := by
  unfold geomWritten at h
  unfold commandWord
  cases hw : windowAccess e with
  | none => rfl
  | some a =>
    rw [hw] at h
    simp only [Option.bind_some, accessWrites] at h ⊢
    cases hk : a.kind with
    | read => rfl
    | fetch => rfl
    | write v =>
      simp only [hk] at h ⊢
      by_cases ho : a.off = regOffset .geom
      · have : regOffset .geom ≠ regOffset .cmd := by decide
        simp [ho, this]
      · simp [ho] at h

/-- A FETCH or EMIT step, case by case: a payload byte is loaded, an out-of-payload slot is loaded, or a beat is
delivered. -/
theorem fbuStep_cases {s t : State} (h : fbuStep s = some t) :
    (∃ p rest, s.fbu.phase = .fetch ∧ byteIndex s.fbu < payloadSize s.fbu.lw s.fbu.lh ∧ s.inStream = p :: rest ∧
      t = { s with inStream := rest, fbu := s.fbu.loadPayload p }) ∨
    (s.fbu.phase = .fetch ∧ payloadSize s.fbu.lw s.fbu.lh ≤ byteIndex s.fbu ∧ t = s.withFbu s.fbu.loadSlot) ∨
    (s.fbu.phase = .emit ∧ s.sinkReady = true ∧
      t = { s with outStream := s.outStream ++ [emitBeat s.fbu], fbu := s.fbu.afterBeat }) := by
  unfold fbuStep at h
  split at h
  · cases h
  · next hp =>
    unfold fetchStep State.inPop at h
    split at h
    · next hb =>
      cases hin : s.inStream with
      | nil => simp [hin] at h
      | cons p rest =>
        simp only [hin] at h
        injection h with h
        exact .inl ⟨p, rest, hp, hb, rfl, h.symm⟩
    · next hb =>
      injection h with h
      exact .inr (.inl ⟨hp, Nat.le_of_not_lt hb, h.symm⟩)
  · next hp =>
    unfold emitStep State.outPush at h
    cases hr : s.sinkReady with
    | false => simp [hr] at h
    | true =>
      simp only [hr, if_true] at h
      injection h with h
      exact .inr (.inr ⟨hp, rfl, h.symm ▸ rfl⟩)

/-- No step of the FBU is enabled exactly in IDLE and in the two waits. -/
theorem fbuStep_eq_none_iff (s : State) :
    fbuStep s = none ↔ s.fbu.phase = .idle ∨ waitsForByte s ∨ waitsForSink s := by
  unfold fbuStep waitsForByte waitsForSink
  cases hp : s.fbu.phase with
  | idle => simp
  | fetch =>
    unfold fetchStep State.inPop
    by_cases hb : byteIndex s.fbu < payloadSize s.fbu.lw s.fbu.lh
    · cases s.inStream <;> simp [hb]
    · simp [hb]
  | emit =>
    unfold emitStep State.outPush
    cases s.sinkReady <;> simp

/-- The FBU's turn, case by case. -/
theorem fbuTurn_cases (s : State) : fbuStep s = some (fbuTurn s) ∨ (fbuStep s = none ∧ fbuTurn s = s) := by
  unfold fbuTurn
  cases fbuStep s with
  | none => exact .inr ⟨rfl, rfl⟩
  | some t => exact .inl rfl

@[simp] theorem eventState_draws (e : Event) (s : State) : (eventState e s).draws = s.draws := by
  cases e with
  | bus a => simp only [eventState]; split <;> rfl
  | fbu =>
    simp only [eventState]
    obtain h | ⟨-, h⟩ := fbuTurn_cases s
    · obtain ⟨p, r, -, -, -, h⟩ | ⟨-, -, h⟩ | ⟨-, -, h⟩ := fbuStep_cases h <;> simp [h]
    · rw [h]
  | _ => rfl

@[simp] theorem eventState_events (e : Event) (s : State) : (eventState e s).events = s.events := by
  cases e with
  | bus a => simp only [eventState]; split <;> rfl
  | fbu =>
    simp only [eventState]
    obtain h | ⟨-, h⟩ := fbuTurn_cases s
    · obtain ⟨p, r, -, -, -, h⟩ | ⟨-, -, h⟩ | ⟨-, -, h⟩ := fbuStep_cases h <;> simp [h]
    · rw [h]
  | _ => rfl

@[simp] theorem runSteps_zero (s : State) : runSteps 0 s = .next s := rfl

@[simp] theorem runSteps_succ (n : Nat) (s : State) : runSteps (n + 1) s = runSteps n (stepState s) := by
  have h := Host.Core.run.eq_2 Sys2Proof.core s n
  rw [show Sys2Proof.core.step s = .next (stepState s) from step_eq s] at h
  exact h

@[simp] theorem stepState_events (s : State) : (stepState s).events = s.events.tail := by
  simp [stepState]

end Sys2Proof.Machine
end

