-- ==== Sys2Proof/Laws/Words.lean ====
section
/-! SUPPORT. Fields of words: the two halves of a register, the fields of a command word, two's complement, and the
fields of a beat. -/

namespace Sys2Proof.Machine

/-- Bits [15:0] of `{hi, lo}`. -/
theorem extractLsb'_low_half (hi lo : Half) : (hi ++ lo : Word).extractLsb' 0 16 = lo := by
  apply BitVec.eq_of_getLsbD_eq
  intro i h
  rw [BitVec.getLsbD_extractLsb', BitVec.getLsbD_append]
  simp [h]

/-- Bits [31:16] of `{hi, lo}`. -/
theorem extractLsb'_high_half (hi lo : Half) : (hi ++ lo : Word).extractLsb' 16 16 = hi := by
  apply BitVec.eq_of_getLsbD_eq
  intro i h
  rw [BitVec.getLsbD_extractLsb', BitVec.getLsbD_append]
  simp [h]

/-- `sext_16` is the integer of the two's complement pattern. -/
theorem sext16_eq_toInt (v : Half) : sext16 v = v.toInt := by
  have := v.isLt
  unfold sext16
  rw [BitVec.toInt_eq_toNat_cond]
  split <;> split <;> first | rfl | omega

/-- A command word is its two fields. -/
theorem toNat_eq_fields (w : Word) : w.toNat = (rsvdField w).toNat * 16 + (opField w).toNat := by
  simp only [rsvdField, opField, BitVec.extractLsb'_toNat]
  have := w.isLt
  omega

/-- A rejected word is rejected under its own name. -/
theorem reject_eq_reserved {w : Word} {r : DecodeReject} (h : decode w = .error r) : r = .reserved w := by
  unfold decode at h
  split at h
  · split at h
    · cases h
    · injection h with h; exact h.symm
  · injection h with h; exact h.symm

/-- Every field of a beat is read back from its value. -/
theorem packBeat_fields (b : BeatFields) :
    (packBeat b).getLsbD 0 = b.pix ∧ ((packBeat b).extractLsb' 1 2).toNat = classCode b.cls ∧
      (packBeat b).getLsbD 3 = b.eor ∧ (packBeat b).getLsbD 4 = b.eog ∧ (packBeat b).getLsbD 5 = b.colpad := by
  obtain ⟨pix, cls, eor, eog, colpad⟩ := b
  cases pix <;> cases cls <;> cases eor <;> cases eog <;> cases colpad <;> decide

end Sys2Proof.Machine
end

