-- ==== Sys2Proof/Laws/PerInstr.lean ====
section
/-! SUPPORT. A family of laws, one lemma per command: its encoding is a valid word of the opcode map (30_encoding.md
R81), laid out in its four byte lanes (20_memory.md R54). -/

namespace Sys2Proof.Laws.ValidWord

/-- The word of the command has `RSVD = 0` and `OP ≤ 3`, the command is well formed, and its bytes are the lanes of
its word. -/
def Statement (i : Instr) : Prop :=
  rsvdField (encode i) = 0 ∧ (opField (encode i)).toNat ≤ 3 ∧ i.wf = true ∧
    wordOfLanes (byteLane 0 (encode i)) (byteLane 1 (encode i)) (byteLane 2 (encode i)) (byteLane 3 (encode i))
      = encode i

theorem nop : Statement .nop := by unfold Statement; decide
theorem measure : Statement .measure := by unfold Statement; decide
theorem raster : Statement .raster := by unfold Statement; decide
theorem abort : Statement .abort := by unfold Statement; decide

end Sys2Proof.Laws.ValidWord
end

