-- ==== Sys2Proof/Laws/Sequencer.lean ====
section
/-! SUPPORT. Said once: what recording an error, starting a job and advancing after a beat do to the FBU. -/

namespace Sys2Proof.Machine

theorem Fbu.recordError_eq (c : ErrCause) (f : Fbu) :
    f.recordError c = { f with errc := if f.errc = .none then c else f.errc } := by
  unfold Fbu.recordError
  split <;> rfl

theorem Fbu.startRaster_of_isEmpty {f : Fbu} (h : isEmpty (geomWidth f.geom) (geomHeight f.geom) = true) :
    f.startRaster = (f.latch.setDone false).setDone true := by
  unfold Fbu.startRaster
  exact if_pos (payloadSize_of_isEmpty h)

theorem Fbu.startRaster_of_not_isEmpty {f : Fbu} (h : isEmpty (geomWidth f.geom) (geomHeight f.geom) = false) :
    f.startRaster = (f.latch.setDone false).setPhase .fetch := by
  unfold Fbu.startRaster
  exact if_neg (Nat.pos_iff_ne_zero.1 (payloadSize_pos h))

theorem Fbu.nextByte_of_lt {f : Fbu} (h : f.xb.toNat + 1 < rowBytes f.lw f.lh) :
    f.nextByte = { f with j := 0, xb := f.xb + 1 } := if_pos h

theorem Fbu.nextByte_of_le {f : Fbu} (h : rowBytes f.lw f.lh ≤ f.xb.toNat + 1) :
    f.nextByte = { f with j := 0, xb := 0, y := f.y + 1 } := if_neg (Nat.not_lt.2 h)

/-- After a beat: the next bit of the same byte, or the next byte with FETCH, or the end of the grid. -/
theorem Fbu.afterBeat_cases (f : Fbu) :
    (f.j.toNat < 7 ∧ f.afterBeat = f.countBeat.nextBit) ∨
    (f.j.toNat = 7 ∧ f.countBeat.nextByte.y.toNat ≠ rasterHeight f.lw f.lh ∧
      f.afterBeat = f.countBeat.nextByte.setPhase .fetch) ∨
    (f.j.toNat = 7 ∧ f.countBeat.nextByte.y.toNat = rasterHeight f.lw f.lh ∧
      f.afterBeat = f.countBeat.nextByte.complete) := by
  have hj := f.j.isLt
  by_cases h7 : f.j.toNat < 7
  · exact .inl ⟨h7, if_pos h7⟩
  · have he : f.afterBeat = f.countBeat.nextByte.endByte := if_neg h7
    right
    rw [he]
    by_cases hy : f.countBeat.nextByte.y.toNat = rasterHeight f.lw f.lh
    · exact .inr ⟨by omega, hy, if_pos (by simpa using hy)⟩
    · exact .inl ⟨by omega, hy, if_neg (by simpa using hy)⟩

/-- What an event that is neither the FBU's turn nor a reset can do to the FBU. -/
theorem commandFbu_cases (w : Word) (f : Fbu) :
    (∃ r, decode w = .error r ∧ commandFbu w f = f.recordError .rsvd) ∨
    (decode w = .ok .nop ∧ commandFbu w f = f) ∨
    (decode w = .ok .abort ∧ commandFbu w f = ((f.setPhase .idle).setDone false).clearError) ∨
    ((decode w = .ok .measure ∨ decode w = .ok .raster) ∧ f.phase ≠ .idle ∧ commandFbu w f = f.recordError .busy) ∨
    (decode w = .ok .measure ∧ f.phase = .idle ∧ commandFbu w f = f.latch.setDone true) ∨
    (decode w = .ok .raster ∧ f.phase = .idle ∧ commandFbu w f = f.startRaster) := by
  unfold commandFbu
  cases hd : decode w with
  | error r => exact .inl ⟨r, rfl, rfl⟩
  | ok i => cases i <;> by_cases hp : f.phase = .idle <;> simp [hp]

end Sys2Proof.Machine
end

