-- ==== Sys2Proof/Laws/Runs.lean ====
section
/-! SUPPORT. Infinite runs: each state of one, and what fairness says of it. -/

namespace Sys2Proof.Machine

/-- The states of a run are the events' effects, one after another. -/
theorem isRun_iff {e : Nat → Event} {r : Nat → State} : IsRun e r ↔ ∀ n, r (n + 1) = eventState (e n) (r n) := by
  unfold IsRun
  refine forall_congr' fun n => ?_
  rw [handleEvent_eq]
  exact ⟨fun h => by injection h with h; exact h.symm, fun h => by rw [h]⟩

/-- A step that is enabled infinitely often is taken infinitely often. -/
theorem OnceEnabledHappens.taken {e : Nat → Event} {r : Nat → State} (h : OnceEnabledHappens e r)
    (hen : ∀ n, ∃ m, n ≤ m ∧ fbuEnabled (r m)) (n : Nat) : ∃ m, n ≤ m ∧ e m = .fbu ∧ fbuEnabled (r m) := by
  obtain ⟨k, hk, hek⟩ := hen n
  obtain ⟨m, hm, ⟨he, hem⟩ | hno⟩ := h k hek
  · exact ⟨m, hk.trans hm, he, hem⟩
  · obtain ⟨j, hj, hej⟩ := hen m
    exact absurd hej (hno j hj)

theorem OnceEnabledHappens.weaklyFair {e : Nat → Event} {r : Nat → State} (h : OnceEnabledHappens e r) :
    WeaklyFair e r := by
  intro n hen
  obtain ⟨m, hm, he, -⟩ := h.taken (fun k => ⟨max n k, Nat.le_max_right n k, hen _ (Nat.le_max_left n k)⟩) n
  exact ⟨m, hm, he⟩

end Sys2Proof.Machine
end

