-- ==== Sys2Proof/Tests/Slice0.lean ====
section
/-! SUPPORT. The model's own tests: every expected value is written out in spec/95_test_vectors.md or in the worked
example of a rule, as each test's comment says; then a witness for the hypotheses of each statement. -/

namespace Sys2Proof.Machine.Tests

/-! ### Helpers -/

/-- The FBU that an outcome leaves, none where it stops. -/
def fbuOf : Host.Outcome State Fault Refusal → Option Fbu
  | .next t => some t.fbu
  | .fault _ => none
  | .refused _ => none

/-- What a register reads as after an outcome. -/
def regOf (off : Nat) (o : Host.Outcome State Fault Refusal) : Option Word := (fbuOf o).map (regRead off)

/-- The beats on OUT after an outcome. -/
def outOf : Host.Outcome State Fault Refusal → List Beat
  | .next t => t.outStream
  | .fault _ => []
  | .refused _ => []

/-- The answer to the host after an outcome. -/
def answerOf : Host.Outcome State Fault Refusal → Response
  | .next t => t.response
  | .fault _ => .none
  | .refused _ => .none

/-- Reset, with GEOM written. -/
def withGeom (g : Word) : State := { State.reset with fbu := { Fbu.reset with geom := g } }

/-- A job of geometry `{lh, lw}` at its first FETCH, with bytes offered and the sink ready. -/
def started (lw lh : Half) (bytes : List Byte) : State :=
  { State.reset with
    fbu := { Fbu.reset with geom := lh ++ lw, lw := lw, lh := lh, phase := .fetch }
    inStream := bytes, sinkReady := true }

/-- The job of 42_control.md R171's example, waiting for its second byte after 8 beats. -/
def waiting : State :=
  { State.reset with
    fbu := { Fbu.reset with
      geom := 0x00020010#32, lw := 16, lh := 2, phase := .fetch, xb := 1, cb := 0x12#8, incount := 1, outcount := 8 }
    sinkReady := true }

/-- The job of WE1 before its last beat. -/
def lastBeat : State :=
  { State.reset with
    fbu := { Fbu.reset with
      geom := 0x00040008#32, lw := 8, lh := 4, phase := .emit, y := 3, j := 7, cb := 0x0F#8, incount := 4,
      outcount := 31 }
    sinkReady := true }

/-- `s` with one event fixed. -/
def nextIs (e : Event) (s : State) : State := { s with events := [e] }

/-! ### Decoding: words written out from 30_encoding.md R80 and R81 -/

/-- OP = 0000, RSVD = 0. -/
theorem test_decode_nop : decode 0b00000000000000000000000000000000#32 = .ok .nop := by decide
/-- OP = 0001, RSVD = 0. -/
theorem test_decode_measure : decode 0b00000000000000000000000000000001#32 = .ok .measure := by decide
/-- OP = 0010, RSVD = 0. -/
theorem test_decode_raster : decode 0b00000000000000000000000000000010#32 = .ok .raster := by decide
/-- OP = 0011, RSVD = 0. -/
theorem test_decode_abort : decode 0b00000000000000000000000000000011#32 = .ok .abort := by decide
/-- The first and the last reserved opcode (R82). -/
theorem test_decode_reserved_op :
    decode 0x00000004#32 = .error (.reserved 0x00000004#32) ∧
      decode 0x0000000F#32 = .error (.reserved 0x0000000F#32) := by decide
/-- RSVD nonzero in its lowest and its highest bit (R82, V-CTL). -/
theorem test_decode_reserved_field :
    decode 0x00000012#32 = .error (.reserved 0x00000012#32) ∧
      decode 0x80000001#32 = .error (.reserved 0x80000001#32) := by decide
/-- Lane 0 comes first (20_memory.md R54), and three bytes are no word. -/
theorem test_decode_bytes :
    decodeBytes [0x02#8, 0x00#8, 0x00#8, 0x00#8, 0x77#8] = .ok (.raster, [0x77#8]) ∧
      decodeBytes [0x00#8, 0x00#8, 0x00#8, 0x02#8] = .error (.reserved 0x02000000#32) ∧
      decodeBytes [0x02#8, 0x00#8, 0x00#8] = .error (.truncated 3) := by decide
/-- The opcode table's numbers. -/
theorem test_decode_table :
    decodeTableWord 32 0 = some .nop ∧ decodeTableWord 32 1 = some .measure ∧ decodeTableWord 32 2 = some .raster ∧
      decodeTableWord 32 3 = some .abort ∧ decodeTableWord 32 4 = none := by decide

/-! ### Well-formedness: one ill-formed term for each check -/

/-- An access of 8 bits (20_memory.md R51). -/
theorem test_wf_refuses_width : ({ off := 0, width := 8, kind := .read } : Access).wf = false := by decide
/-- An access at offset 0x02 (V-BUS). -/
theorem test_wf_refuses_misaligned : (Event.host { off := 2, width := 32, kind := .read }).wf = false := by decide
/-- An access beyond the window (20_memory.md R51). -/
theorem test_wf_refuses_outside : ({ off := 0x40, width := 32, kind := .read } : Access).wf = false := by decide
/-- GLYPH operands beyond 16 bits, above and below (30_encoding.md R89). -/
theorem test_wf_refuses_glyph :
    (HostLine.glyph 32768 1).wf = false ∧ (HostLine.glyph 1 (-32769)).wf = false ∧
      (HostLine.glyph (-32768) 32767).wf = true := by decide

/-! ### Commands -/

/-- V-CTL: after reset, NOP leaves STATUS at 0x00000004. -/
theorem test_nop_status : regOf 0x08 (step (State.reset.withFetchWord 32 0)) = some 0x00000004#32 := by decide
/-- 40_geometry.md R110, worked example `GLYPH 10, 5`. -/
theorem test_measure_example :
    [0x0C, 0x10, 0x14, 0x18, 0x08].map (fun off => regOf off (step ((withGeom 0x0005000A#32).withFetchWord 32 1))) =
      [some 0x0005000A#32, some 0x0000000C#32, some 0x00000002#32, some 0x00080010#32, some 0x00000002#32] := by
  decide
/-- 40_geometry.md R110, the largest values. -/
theorem test_measure_largest :
    [0x10, 0x14, 0x18].map (fun off => regOf off (step ((withGeom 0x7FFF7FFF#32).withFetchWord 32 1))) =
      [some 0x07FFF000#32, some 0x00001000#32, some 0x80008000#32] := by decide
/-- V-RAS: RASTER of a non-empty glyph leaves STATUS at 0x00000011. -/
theorem test_raster_starts :
    regOf 0x08 (step ((withGeom 0x00040008#32).withFetchWord 32 2)) = some 0x00000011#32 := by decide
/-- WE2: RASTER of an empty glyph leaves STATUS at 0x00000006 in the same event. -/
theorem test_raster_empty : regOf 0x08 (step (State.reset.withFetchWord 32 2)) = some 0x00000006#32 := by decide
/-- 42_control.md R171, worked example. -/
theorem test_abort_example :
    [0x08, 0x1C, 0x20, 0x24].map (fun off => regOf off (step (waiting.withFetchWord 32 3))) =
      [some 0x00000000#32, some 0x00000001#32, some 0x00000008#32, some 0x00000008#32] := by decide
/-- 42_control.md R172, worked example. -/
theorem test_reserved_word : regOf 0x08 (step (State.reset.withFetchWord 32 0x12)) = some 0x0000004C#32 := by decide
/-- 42_control.md R173, worked example: MEASURE and RASTER while waiting in FETCH. -/
theorem test_busy_commands :
    regOf 0x08 (step (waiting.withFetchWord 32 2)) = some 0x00000099#32 ∧
      regOf 0x08 (step (waiting.withFetchWord 32 1)) = some 0x00000099#32 := by decide
/-- V-CTL: ERRC keeps its first cause, BUSY. -/
theorem test_first_cause_kept :
    regOf 0x08 (step (State.withFetchWord { waiting with fbu := { waiting.fbu with errc := .busy } } 32 5)) =
      some 0x00000099#32 := by decide

/-! ### Geometry: rows of V-GEO -/

/-- `w = 17, h = 3`: ROWBYTES 3, SIZE 12, DIM 0x00040018. -/
theorem test_geometry_17_3 :
    rowBytes 17 3 = 3 ∧ payloadSize 17 3 = 12 ∧ rasterWidth 17 3 = 0x18 ∧ rasterHeight 17 3 = 4 ∧
      slotStride 17 3 = 28 := by decide
/-- `w = -1, h = 8` is empty, and so is `w = 0, h = 5`, whose DIM is not 0x00080000. -/
theorem test_geometry_empty :
    isEmpty 0xFFFF#16 8 = true ∧ payloadSize 0xFFFF#16 8 = 0 ∧ rasterHeight 0 5 = 0 ∧ slotStride 0 5 = 16 := by
  decide

/-! ### The sequencer -/

/-- V-RAS-7: after `SRC F0`, one FETCH leaves STATUS at 0x00000021 and INCOUNT at 1. -/
theorem test_fetch :
    [0x08, 0x1C].map (fun off => regOf off (step (nextIs .fbu (started 8 4 [0xF0#8])))) =
      [some 0x00000021#32, some 0x00000001#32] := by decide
/-- P3: byte index 4 of `GLYPH 9, 1` is out of the payload; FETCH pops nothing. -/
theorem test_fetch_slot :
    let s := nextIs .fbu { State.reset with
      fbu := { Fbu.reset with lw := 9, lh := 1, phase := .fetch, y := 2, incount := 4, outcount := 32, cb := 0x55#8 }
      inStream := [0x77#8] }
    (fbuOf (step s)).map (fun f => (f.cb, f.incount, f.phase)) = some (0x00#8, 4#32, .emit) := by decide
/-- WE7: with no byte offered FETCH waits: STATUS stays 0x00000011. -/
theorem test_fetch_waits : regOf 0x08 (step (nextIs .fbu waiting)) = some 0x00000011#32 := by decide
/-- 41_raster.md R139, worked example: the first EMIT of WE1 delivers beat 0x01 and sets J to 1. -/
theorem test_first_emit :
    let s := nextIs .fbu { State.reset with
      fbu := { Fbu.reset with lw := 8, lh := 4, phase := .emit, cb := 0xF0#8, incount := 1 }, sinkReady := true }
    outOf (step s) = [0x01#6] ∧ (fbuOf (step s)).map (·.j) = some 1 := by decide
/-- WE1: the last beat is 0x19, STATUS is 0x00000002, OUTCOUNT 0x20 and POS 0x00040000. -/
theorem test_last_emit :
    outOf (step (nextIs .fbu lastBeat)) = [0x19#6] ∧
      [0x08, 0x20, 0x24].map (fun off => regOf off (step (nextIs .fbu lastBeat))) =
        [some 0x00000002#32, some 0x00000020#32, some 0x00040000#32] := by decide
/-- V-RAS-2: the last beat, an OOB pixel with COLPAD, EOR and EOG, is 0x3C. -/
theorem test_oob_beat :
    let s := nextIs .fbu { State.reset with
      fbu := { Fbu.reset with
        lw := 12, lh := 2, phase := .emit, y := 3, xb := 1, j := 7, incount := 4, outcount := 63 }
      sinkReady := true }
    outOf (step s) = [0x3C#6] := by decide
/-- V-RAS-1: the last beat of the first FILL row (byte 0x11) is 0x2B. -/
theorem test_fill_beat :
    let s := nextIs .fbu { State.reset with
      fbu := { Fbu.reset with
        lw := 1, lh := 1, phase := .emit, y := 1, j := 7, cb := 0x11#8, incount := 2, outcount := 15 }
      sinkReady := true }
    outOf (step s) = [0x2B#6] := by decide
/-- V-RAS-5: row 3 of the pure grid is the FILL row of that vector. -/
theorem test_grid_row :
    ((List.range 16).map fun x => jobBeat 10 3 [0xC0, 0x40, 0x80, 0x80, 0xFF, 0xC0, 0x01, 0x02] (48 + x)) =
      [0x02#6, 0x02#6, 0x02#6, 0x02#6, 0x02#6, 0x02#6, 0x02#6, 0x03#6, 0x02#6, 0x02#6, 0x22#6, 0x22#6, 0x22#6, 0x22#6,
        0x23#6, 0x3A#6] := by decide

/-! ### The control window: V-BUS -/

/-- A 32-bit write of 0x12345678 to GEOM reads back. -/
theorem test_geom_write :
    regOf 0x00 (step (nextIs (.host { off := 0x00, width := 32, kind := .write 0x12345678#32 }) State.reset)) =
      some 0x12345678#32 := by decide
/-- A write of 3 to STATUS is not an ABORT. -/
theorem test_status_write_ignored :
    fbuOf (step (nextIs (.host { off := 0x08, width := 32, kind := .write 0x00000003#32 }) waiting)) =
      some waiting.fbu := by decide
/-- CMD and a reserved offset read 0. -/
theorem test_zero_reads :
    answerOf (step (nextIs (.host { off := 0x04, width := 32, kind := .read }) waiting)) = .data 0 ∧
      answerOf (step (nextIs (.host { off := 0x3C, width := 32, kind := .fetch }) waiting)) = .data 0 := by decide
/-- A 16-bit write to CMD and an access at offset 0x02 end in BusError. -/
theorem test_bus_error :
    answerOf (step (nextIs (.host { off := 0x04, width := 16, kind := .write 3 }) waiting)) = .busError 0x04 16 ∧
      fbuOf (step (nextIs (.host { off := 0x04, width := 16, kind := .write 3 }) waiting)) = some waiting.fbu ∧
      answerOf (step (nextIs (.host { off := 0x02, width := 32, kind := .read }) waiting)) = .busError 0x02 32 := by
  decide

/-! ### Reset and the host's notation -/

/-- V-RST: reset in the middle of a job. -/
theorem test_reset_event : fbuOf (step (nextIs .reset waiting)) = some Fbu.reset := by decide
/-- 30_encoding.md R90: `GLYPH -1, 8` is a write of 0x0008FFFF to GEOM; WE8: record bytes 08 00 04 00. -/
theorem test_glyph_words :
    glyphWord (-1) 8 = 0x0008FFFF#32 ∧ recordGeom 0x08#8 0x00#8 0x04#8 0x00#8 = 0x00040008#32 := by decide

/-! ### Witnesses: a state and operands that meet the hypotheses of each statement -/

theorem waiting_jobInv : JobInv waiting.fbu := by constructor <;> decide
theorem lastBeat_jobInv : JobInv lastBeat.fbu := by constructor <;> decide
theorem started_jobInv : JobInv (started 8 4 [0xF0#8]).fbu := by constructor <;> decide

theorem keepsJob_fbu : keepsJob .fbu := by
  simp [keepsJob, issues, commandWord, windowAccess]

theorem keepsJob_offer (b : Byte) : keepsJob (.offer b) := by
  simp [keepsJob, issues, commandWord, windowAccess]

theorem witness_reserved_word : ∀ i, 0x00000004#32 ≠ encode i := by
  intro i; cases i <;> decide

theorem witness_command_write :
    decode 0x00000001#32 = .ok .measure ∧
      (nextIs (.host { off := 0x04, width := 32, kind := .write 1 }) State.reset).events =
        .host { off := 0x04, width := 32, kind := .write 1 } :: [] := by decide

theorem witness_measure_idle_and_busy : State.reset.fbu.phase = .idle ∧ waiting.fbu.phase ≠ .idle := by decide

theorem witness_raster_nonempty_and_empty :
    (withGeom 0x00040008#32).fbu.phase = .idle ∧ 0 < ((withGeom 0x00040008#32).fbu.geom.extractLsb' 0 16).toInt ∧
      0 < ((withGeom 0x00040008#32).fbu.geom.extractLsb' 16 16).toInt ∧
      State.reset.fbu.phase = .idle ∧ (State.reset.fbu.geom.extractLsb' 0 16).toInt ≤ 0 := by decide

theorem witness_command_frame :
    exec .measure waiting = .next (waiting.withFbu (waiting.fbu.recordError .busy)) ∧ waiting.fbu.phase ≠ .idle ∧
      (waiting.withFbu (waiting.fbu.recordError .busy)).fbu.errc ≠ .none := ⟨rfl, by decide, by decide⟩

/-- Each writer does change its element: GEOM by a GEOM write, LW by RASTER, CB and INCOUNT by FETCH, J and OUTCOUNT by
EMIT, ERRC by a reserved word, DONE and PHASE by the last EMIT. -/
theorem witness_writers :
    (fbuOf (step (nextIs (.host { off := 0, width := 32, kind := .write 1 }) waiting))).map (·.geom) = some 1 ∧
      (fbuOf (step ((withGeom 0x00040008#32).withFetchWord 32 2))).map (·.lw) = some 8 ∧
      (fbuOf (step (nextIs .fbu (started 8 4 [0xF0#8])))).map (fun f => (f.cb, f.incount)) = some (0xF0#8, 1#32) ∧
      (fbuOf (step (nextIs .fbu lastBeat))).map (fun f => (f.j, f.outcount, f.done, f.phase)) =
        some (0#3, 32#32, true, .idle) ∧
      (fbuOf (step (waiting.withFetchWord 32 4))).map (·.errc) = some .rsvd := by decide

theorem witness_no_fixed_event : State.reset.events = [] := rfl

/-- Every clause of the access rule at its edges: width 8, offset 2, offset 0x40; offsets 0x00 and 0x3C. -/
theorem witness_access :
    (nextIs (.host { off := 0x3C, width := 32, kind := .read }) waiting).events =
        .host { off := 0x3C, width := 32, kind := .read } :: [] ∧
      (8 ≠ 32 ∨ 0 % 4 ≠ 0 ∨ 0x3C < 0) ∧ (32 ≠ 32 ∨ 2 % 4 ≠ 0 ∨ 0x3C < 2) ∧ (32 ≠ 32 ∨ 0x40 % 4 ≠ 0 ∨ 0x3C < 0x40) ∧
      (0x3C % 4 = 0 ∧ 0x3C ≤ 0x3C) ∧ 0 % 4 = 0 := by decide

/-- A write at the first and last offset that ignores it, and a read at CMD, 0x28 and 0x3C. -/
theorem witness_ignored_offsets :
    (0x08 % 4 = 0 ∧ 0x08 ≤ 0x08 ∧ 0x08 ≤ 0x3C) ∧ (0x3C % 4 = 0 ∧ 0x28 ≤ 0x3C) ∧ (0x28 % 4 = 0 ∧ 0x28 ≤ 0x3C) ∧
      (nextIs (.host { off := 0x08, width := 32, kind := .write 3 }) waiting).events =
        .host { off := 0x08, width := 32, kind := .write 3 } :: [] ∧
      (nextIs (.host { off := 0x28, width := 32, kind := .read }) waiting).events =
        .host { off := 0x28, width := 32, kind := .read } :: [] := by decide

theorem witness_geom_write_then_read :
    ({ waiting with events := [.host { off := 0x00, width := 32, kind := .write 5 },
        .host { off := 0x00, width := 32, kind := .read }] } : State).events =
      .host { off := 0x00, width := 32, kind := .write 5 } ::
        .host { off := 0x00, width := 32, kind := .read } :: [] := rfl

theorem witness_geom_kept : geomWritten (nextIs .fbu waiting).nextEvent = none ∧ (nextIs .fbu waiting).nextEvent ≠ .reset := by
  decide

theorem witness_status_read :
    (nextIs (.host { off := 0x08, width := 32, kind := .read }) waiting).events =
      .host { off := 0x08, width := 32, kind := .read } :: [] := rfl

/-- The job invariant holds in a state with a finished job, whose OUTCOUNT is not 0. -/
theorem witness_finished_job :
    let f : Fbu := { Fbu.reset with lw := 8, lh := 4, done := true, y := 4, incount := 4, outcount := 32 }
    JobInv f ∧ f.done = true ∧ f.outcount ≠ 0 := by
  refine ⟨?_, rfl, by decide⟩
  constructor <;> decide

/-- Inside the window at its first and last offset, and outside it just above. -/
theorem witness_platform_addresses :
    (nextIs (.bus { off := Config.fbuBase + 0x3F, width := 32, kind := .read }) waiting).events =
        .bus { off := Config.fbuBase + 0x3F, width := 32, kind := .read } :: [] ∧
      0x3F < 0x40 ∧ 0x00 < 0x40 ∧ Config.fbuBase + 0x40 ≤ Config.fbuBase + 0x40 :=
  ⟨rfl, by decide, by decide, Nat.le_refl _⟩

/-- The smallest and largest non-empty glyph, and empty ones at the edges. -/
theorem witness_geometry :
    0 < (1 : Half).toInt ∧ 0 < (0x7FFF#16 : Half).toInt ∧ (0 : Half).toInt ≤ 0 ∧ (0x8000#16 : Half).toInt ≤ 0 ∧
      rowBytes 8 1 = 1 ∧ rowBytes 9 1 = 2 := by decide

/-- A grid byte of each class: 1 and 2 and 4 of `w = 9, h = 1`. -/
theorem witness_classes :
    4 < rasterHeight 9 1 * rowBytes 9 1 ∧ pixelClass 9 1 (1 / 2) 1 = .data ∧ pixelClass 9 1 (2 / 2) 2 = .fill ∧
      pixelClass 9 1 (4 / 2) 4 = .oob := by decide

theorem witness_fetch :
    (nextIs .fbu (started 8 4 [0xF0#8])).events = .fbu :: [] ∧ (started 8 4 [0xF0#8]).fbu.phase = .fetch ∧
      byteIndex (started 8 4 [0xF0#8]).fbu < payloadSize 8 4 ∧ (started 8 4 [0xF0#8]).inStream = 0xF0#8 :: [] ∧
      byteIndex waiting.fbu < payloadSize 16 2 ∧ waiting.inStream = [] := by decide

/-- The first byte index beyond the payload of `w = 9, h = 1`. -/
theorem witness_fetch_slot :
    let f : Fbu := { Fbu.reset with lw := 9, lh := 1, phase := .fetch, y := 2, incount := 4, outcount := 32 }
    payloadSize f.lw f.lh = f.y.toNat * rowBytes f.lw f.lh + f.xb.toNat ∧ JobInv f := by
  refine ⟨by decide, ?_⟩
  constructor <;> decide

/-- The last beat of WE1, with its fields, its sink ready, and both cases of the next byte. -/
theorem witness_emit :
    (nextIs .fbu lastBeat).events = .fbu :: [] ∧ lastBeat.fbu.phase = .emit ∧ lastBeat.sinkReady = true ∧
      lastBeat.fbu.j.toNat = 7 ∧ (true = lastBeat.fbu.cb.getLsbD (7 - lastBeat.fbu.j.toNat)) ∧
      PixelClass.data = pixelClass 8 4 3 3 ∧ ((8 * 0 + 7 : Int) = rasterWidth 8 4 - 1) ∧
      ((3 : Int) = rasterHeight 8 4 - 1) ∧ ¬ ((8 : Half).toInt ≤ 7) ∧
      rowBytes 8 4 ≤ lastBeat.fbu.xb.toNat + 1 ∧ (0 : BitVec 12).toNat + 1 < rowBytes 16 2 := by decide

theorem witness_job_state_in_emit : JobInv lastBeat.fbu ∧ lastBeat.fbu.phase = .emit := ⟨lastBeat_jobInv, rfl⟩

/-- A last beat, whose EOG is 1, and one that is not. -/
theorem witness_completion :
    (emitBeat lastBeat.fbu).getLsbD 4 = true ∧
      (emitBeat { lastBeat.fbu with y := 2, outcount := 23, incount := 3 }).getLsbD 4 = false := by decide

theorem witness_waits : waitsForByte waiting ∧ waitsForSink { lastBeat with sinkReady := false } :=
  ⟨⟨rfl, by decide, rfl⟩, ⟨rfl, rfl⟩⟩

theorem witness_reset_event : (nextIs .reset waiting).events = .reset :: [] := rfl

/-- A byte popped, and a beat delivered, from states that meet the job invariant. -/
theorem witness_streams_move :
    (nextIs .fbu (started 8 4 [0xF0#8])).nextEvent = .fbu ∧
      outOf (step (nextIs .fbu lastBeat)) ≠ lastBeat.outStream ∧ JobInv (started 8 4 [0xF0#8]).fbu :=
  ⟨rfl, by decide, started_jobInv⟩

/-- A whole run: RASTER of `w = 8, h = 4`, a byte offered and the FBU's turn. -/
theorem witness_raster_run :
    let s : State := { withGeom 0x00040008#32 with
      events := commandEvent (encode .raster) :: ([.offer 0xF0#8, .fbu] ++ []) }
    s.fbu.phase = .idle ∧ isEmpty (geomWidth s.fbu.geom) (geomHeight s.fbu.geom) = false ∧
      (∀ e ∈ [Event.offer 0xF0#8, Event.fbu], keepsJob e) := by
  refine ⟨rfl, by decide, ?_⟩
  intro e he
  rcases List.mem_cons.1 he with rfl | he
  · exact keepsJob_offer _
  · rw [List.mem_singleton.1 he]; exact keepsJob_fbu

/-- The truncated source of P5: one byte offered and popped, its eight beats, a wait on the empty IN, then ABORT. -/
theorem witness_aborted_run :
    let es := Event.sink true :: .offer 0xF0#8 :: List.replicate 10 Event.fbu
    let s : State := { withGeom 0x00040008#32 with
      events := commandEvent (encode .raster) :: (es ++ commandEvent (encode .abort) :: []) }
    s.fbu.phase = .idle ∧ isEmpty (geomWidth s.fbu.geom) (geomHeight s.fbu.geom) = false ∧ (∀ e ∈ es, keepsJob e) := by
  refine ⟨rfl, by decide, ?_⟩
  intro e he
  rcases List.mem_cons.1 he with rfl | he
  · simp [keepsJob, issues, commandWord, windowAccess]
  rcases List.mem_cons.1 he with rfl | he
  · exact keepsJob_offer _
  · rw [List.eq_of_mem_replicate he]; exact keepsJob_fbu

/-- A run that completes: four bytes offered, the sink ready, 36 turns. -/
theorem witness_raster_run_completes :
    let s : State := { withGeom 0x00040008#32 with
      inStream := [0xF0#8, 0x0F#8, 0xF0#8, 0x0F#8], sinkReady := true
      events := commandEvent (encode .raster) :: (List.replicate 36 .fbu ++ []) }
    s.fbu.phase = .idle ∧ isEmpty (geomWidth s.fbu.geom) (geomHeight s.fbu.geom) = false ∧ s.sinkReady = true ∧
      payloadSize 8 4 ≤ s.inStream.length ∧
      9 * (rasterHeight 8 4 * rowBytes 8 4) ≤ turnsIn (List.replicate 36 .fbu) ∧
      (∀ e ∈ List.replicate 36 Event.fbu, keepsJob e ∧ e ≠ .sink false) := by
  refine ⟨rfl, by decide, rfl, by decide, by decide, ?_⟩
  intro e he
  rw [List.eq_of_mem_replicate he]
  exact ⟨keepsJob_fbu, by decide⟩

/-- An infinite weakly fair run: every event is the FBU's turn. -/
theorem witness_fair_run :
    ∃ (e : Nat → Event) (r : Nat → State),
      IsRun e r ∧ WeaklyFair e r ∧ JobInv (r 0).fbu ∧ (r 0).fbu.phase ≠ .idle ∧ (r 0).sinkReady = true ∧
      payloadSize (r 0).fbu.lw (r 0).fbu.lh ≤ (r 0).fbu.incount.toNat + (r 0).inStream.length ∧
      (∀ n, keepsJob (e n) ∧ e n ≠ .sink false) := by
  refine ⟨fun _ => .fbu,
    fun n => Nat.rec (started 8 4 [0xF0#8, 0x0F#8, 0xF0#8, 0x0F#8]) (fun _ s => fbuTurn s) n,
    fun _ => rfl, fun n _ => ⟨n, Nat.le_refl n, rfl⟩, ?_, ?_, rfl, ?_, fun _ => ⟨keepsJob_fbu, fun h => by cases h⟩⟩
  · constructor <;> decide
  · decide
  · decide

/-- The events of a run in which, again and again, a byte is offered, the sink becomes ready, the FBU has a turn, and
the sink becomes not ready. -/
def alternating (n : Nat) : Event :=
  match n % 4 with
  | 0 => .offer 0xFF#8
  | 1 => .sink true
  | 2 => .fbu
  | _ => .sink false

/-- The states of that run, from the first FETCH of WE1 with its four bytes offered. -/
def alternatingRun : Nat → State
  | 0 => started 8 4 [0xF0#8, 0x0F#8, 0xF0#8, 0x0F#8]
  | n + 1 => eventState (alternating n) (alternatingRun n)

/-- At each of its turns the FBU has a byte and a ready sink. -/
theorem alternatingRun_turn (q : Nat) :
    alternating (4 * q + 2) = .fbu ∧ (alternatingRun (4 * q + 2)).sinkReady = true ∧
      (alternatingRun (4 * q + 2)).inStream ≠ [] := by
  have h0 : alternating (4 * q) = .offer 0xFF#8 := by simp [alternating]
  have h1 : alternating (4 * q + 1) = .sink true := by simp [alternating, Nat.add_mod]
  refine ⟨by simp [alternating, Nat.add_mod], ?_⟩
  show (eventState (alternating (4 * q + 1)) (eventState (alternating (4 * q)) _)).sinkReady = true ∧
    (eventState (alternating (4 * q + 1)) (eventState (alternating (4 * q)) _)).inStream ≠ []
  rw [h0, h1]
  simp [eventState]

theorem alternatingRun_idle {m : Nat} (h : (alternatingRun m).fbu.phase = .idle) (d : Nat) :
    (alternatingRun (m + d)).fbu.phase = .idle := by
  induction d with
  | zero => exact h
  | succ d ih =>
    show (eventState (alternating (m + d)) (alternatingRun (m + d))).fbu.phase = .idle
    unfold alternating
    split <;> simp [eventState, fbuTurn, fbuStep, ih]

/-- An infinite run in which a step, once enabled, happens, the sink is ready and not ready infinitely often, and all
bytes are offered. -/
theorem witness_alternating_sink :
    IsRun alternating alternatingRun ∧ OnceEnabledHappens alternating alternatingRun ∧
      JobInv (alternatingRun 0).fbu ∧ (alternatingRun 0).fbu.phase ≠ .idle ∧ (∀ n, keepsJob (alternating n)) ∧
      (∃ n, payloadSize (alternatingRun 0).fbu.lw (alternatingRun 0).fbu.lh ≤
        (alternatingRun n).fbu.incount.toNat + (alternatingRun n).inStream.length) ∧
      (∀ n, ∃ m, n ≤ m ∧ (alternatingRun m).sinkReady = true) ∧ (∀ n, ∃ m, n ≤ m ∧ alternating m = .sink false) := by
  refine ⟨isRun_iff.2 fun _ => rfl, fun n _ => ⟨4 * n + 2, by omega, ?_⟩, ?_, by decide, fun n => ?_, ⟨0, by decide⟩,
    fun n => ⟨4 * n + 2, by omega, (alternatingRun_turn n).2.1⟩,
    fun n => ⟨4 * n + 3, by omega, by simp [alternating, Nat.add_mod]⟩⟩
  · obtain ⟨h1, h2, h3⟩ := alternatingRun_turn n
    by_cases hp : (alternatingRun (4 * n + 2)).fbu.phase = .idle
    · refine .inr fun k hk => ?_
      have := alternatingRun_idle hp (k - (4 * n + 2))
      rw [Nat.add_sub_cancel' hk] at this
      simp [fbuEnabled, fbuStep, this]
    · refine .inl ⟨h1, ?_⟩
      unfold fbuEnabled
      rw [Option.isSome_iff_ne_none, Ne, fbuStep_eq_none_iff]
      rintro (h | ⟨-, -, h⟩ | ⟨-, h⟩)
      · exact hp h
      · exact h3 h
      · rw [h2] at h; cases h
  · constructor <;> decide
  · unfold alternating
    split <;> simp [keepsJob, issues, commandWord, windowAccess]

/-- An address below the window: one unless `FBU_BASE` is 0, where there is none. -/
theorem witness_address_below_the_window :
    Config.fbuBase = 0 ∨
      ({ off := Config.fbuBase - 1, width := 32, kind := .read } : Access).off < Config.fbuBase := by
  show Config.fbuBase = 0 ∨ Config.fbuBase - 1 < Config.fbuBase
  omega

/-- The first beat beyond the glyph row of `w = 9, h = 1`, and the first one out of its payload. -/
theorem witness_fill_bytes :
    isEmpty 9 1 = false ∧ 15 < rasterWidth 9 1 * logicalHeight 1 ∧ 8 * payloadSize 9 1 ≤ 32 ∧
      (∀ b, b < dataBytes 9 1 → [1#8, 2, 3, 4].getD b 0 = [1#8, 2, 5, 6].getD b 0) := by
  refine ⟨by decide, by decide, by decide, ?_⟩
  intro b hb
  have h2 : dataBytes 9 1 = 2 := by decide
  rw [h2] at hb
  match b, hb with
  | 0, _ => rfl
  | 1, _ => rfl

theorem witness_idle_stable :
    State.reset.fbu.phase = .idle ∧
      geomWritten (nextIs (.host { off := 0x08, width := 32, kind := .write 3 }) State.reset).nextEvent = none ∧
      commandWord (nextIs (.host { off := 0x08, width := 32, kind := .write 3 }) State.reset).nextEvent = none ∧
      (nextIs (.host { off := 0x08, width := 32, kind := .write 3 }) State.reset).nextEvent ≠ .reset := by decide

/-- The extreme operands of GLYPH. -/
theorem witness_glyph_line :
    (HostLine.glyph (-32768) 32767).wf = true ∧
      (State.reset.loadProgram [.glyph (-32768) 32767, .cmd .measure]).events =
        programEvents [.glyph (-32768) 32767, .cmd .measure] ++ [] := ⟨by decide, rfl⟩

end Sys2Proof.Machine.Tests
end

section
/-! The decoder, read backwards: the only word of a command is its encoding (30_encoding.md R81, R84). -/

namespace Sys2Proof.Machine

theorem rsvdField_encode (i : Instr) : rsvdField (encode i) = 0 := by cases i <;> rfl

theorem opField_encode_of_opcodeOf (i : Instr) : ∀ op, opcodeOf op = some i → opField (encode i) = op := by
  cases i <;> decide

theorem eq_encode_of_decode {w : Word} {i : Instr} (h : decode w = .ok i) : w = encode i := by
  unfold decode at h
  split at h
  · next hr =>
    split at h
    · next k hk =>
      obtain rfl : k = i := by simpa using h
      apply BitVec.eq_of_toNat_eq
      rw [toNat_eq_fields w, toNat_eq_fields (encode k), hr, rsvdField_encode,
        opField_encode_of_opcodeOf k _ hk]
    · cases h
  · cases h

theorem issues_of_decode {e : Event} {w : Word} {i : Instr} (he : commandWord e = some w)
    (hd : decode w = .ok i) : issues i e :=
  he.trans (congrArg some (eq_encode_of_decode hd))

end Sys2Proof.Machine
end

section
/-! The inversion of a step, said once: every way in which an event can touch the FBU (10_state.md R31). -/

namespace Sys2Proof.Machine

/-- `FbuChange f e g`: the event `e` may turn the FBU `f` into `g`. One constructor for each rule that writes stored
elements, and `same` for an event that writes none. -/
inductive FbuChange (f : Fbu) : Event → Fbu → Prop where
  | same (e : Event) : FbuChange f e f
  | reset : FbuChange f .reset Fbu.reset
  | geom {e : Event} {v : Word} (h : geomWritten e = some v) : FbuChange f e (f.writeGeom v)
  | reserved {e : Event} {w : Word} {r : DecodeReject} (hw : commandWord e = some w) (hd : decode w = .error r) :
      FbuChange f e (f.recordError .rsvd)
  | busy {e : Event} (h : issues .measure e ∨ issues .raster e) (hp : f.phase ≠ .idle) :
      FbuChange f e (f.recordError .busy)
  | abort {e : Event} (h : issues .abort e) : FbuChange f e ((f.setPhase .idle).setDone false).clearError
  | measure {e : Event} (h : issues .measure e) (hp : f.phase = .idle) : FbuChange f e (f.latch.setDone true)
  | raster {e : Event} (h : issues .raster e) (hp : f.phase = .idle) : FbuChange f e f.startRaster
  | payload (p : Byte) (hp : f.phase = .fetch) : FbuChange f .fbu (f.loadPayload p)
  | slot (hp : f.phase = .fetch) : FbuChange f .fbu f.loadSlot
  | beat (hp : f.phase = .emit) : FbuChange f .fbu f.afterBeat

theorem fbuChange_commandFbu {e : Event} {w : Word} (he : commandWord e = some w) (f : Fbu) :
    FbuChange f e (commandFbu w f) := by
  obtain ⟨r, hd, h⟩ | ⟨-, h⟩ | ⟨hd, h⟩ | ⟨hd, hp, h⟩ | ⟨hd, hp, h⟩ | ⟨hd, hp, h⟩ := commandFbu_cases w f <;> rw [h]
  · exact .reserved he hd
  · exact .same e
  · exact .abort (issues_of_decode he hd)
  · exact .busy (hd.imp (issues_of_decode he) (issues_of_decode he)) hp
  · exact .measure (issues_of_decode he hd) hp
  · exact .raster (issues_of_decode he hd) hp

theorem fbuChange_fbuTurn (s : State) : FbuChange s.fbu .fbu (fbuTurn s).fbu := by
  obtain h | ⟨-, h⟩ := fbuTurn_cases s
  · obtain ⟨p, rest, hp, -, -, ht⟩ | ⟨hp, -, ht⟩ | ⟨hp, -, ht⟩ := fbuStep_cases h <;> rw [ht]
    · exact .payload p hp
    · exact .slot hp
    · exact .beat hp
  · rw [h]
    exact .same _

theorem fbuChange_eventState (e : Event) (s : State) : FbuChange s.fbu e (eventState e s).fbu := by
  by_cases hf : e = .fbu
  · subst hf
    exact fbuChange_fbuTurn s
  by_cases hr : e = .reset
  · subst hr
    exact .reset
  rw [eventState_fbu_of_access hf hr]
  split
  · next hg => exact .geom hg
  · split
    · next hc => exact fbuChange_commandFbu hc s.fbu
    · exact .same e

theorem fbuChange_of_step {s t : State} (h : step s = .next t) : FbuChange s.fbu s.nextEvent t.fbu := by
  rw [(step_next_iff s t).1 h, ← s.takeEvent_fbu]
  exact fbuChange_eventState _ _

end Sys2Proof.Machine
end

section
/-! What an advance, a start of a job and a recorded error can change, in the terms of 10_state.md R31. -/

namespace Sys2Proof.Machine

theorem Fbu.recordError_errc_of_ne {c : ErrCause} {f : Fbu} (h : f.errc ≠ .none) :
    (f.recordError c).errc = f.errc := by
  simp [Fbu.recordError_eq, h]

theorem Fbu.startRaster_phase_of_ne {f : Fbu} (h : f.startRaster.phase ≠ f.phase) :
    f.startRaster.phase = .fetch := by
  cases he : isEmpty (geomWidth f.geom) (geomHeight f.geom)
  · simp [Fbu.startRaster_of_not_isEmpty he]
  · simp [Fbu.startRaster_of_isEmpty he] at h

/-- An advance sets DONE only where it completes the job, and never clears it. -/
theorem Fbu.afterBeat_done (f : Fbu) :
    f.afterBeat.done = f.done ∨ (f.afterBeat.done = true ∧ f.afterBeat.phase = .idle) := by
  obtain ⟨-, h⟩ | ⟨-, -, h⟩ | ⟨-, -, h⟩ := f.afterBeat_cases <;> simp [h]

end Sys2Proof.Machine
end

section
/-! The writers of each stored element (10_state.md R31), read off the ways in which an event can touch the FBU. -/

namespace Sys2Proof.Machine

section
variable {s : State} {e : Event} {g : Fbu} (h : FbuChange s.fbu e g)
include h

theorem FbuChange.geom_writers (hne : g.geom ≠ s.fbu.geom) : e = .reset ∨ geomWritten e = some g.geom := by
  cases h with
  | reset => exact .inl rfl
  | geom hv => exact .inr hv
  | _ => simp at hne

theorem FbuChange.latched_writers (hne : g.lw ≠ s.fbu.lw ∨ g.lh ≠ s.fbu.lh) : e = .reset ∨ accepted s e := by
  cases h with
  | reset => exact .inl rfl
  | measure hi hp => exact .inr ⟨hp, .inl hi⟩
  | raster hi hp => exact .inr ⟨hp, .inr hi⟩
  | _ => simp at hne

theorem FbuChange.done_setters (h0 : s.fbu.done = false) (h1 : g.done = true) :
    accepted s e ∨ (e = .fbu ∧ s.fbu.phase = .emit ∧ g.phase = .idle) := by
  cases h with
  | measure hi hp => exact .inl ⟨hp, .inl hi⟩
  | raster hi hp => exact .inl ⟨hp, .inr hi⟩
  | beat hp =>
    obtain hd | ⟨-, hi⟩ := s.fbu.afterBeat_done
    · simp [hd, h0] at h1
    · exact .inr ⟨rfl, hp, hi⟩
  | reset => cases h1
  | _ => simp [h0] at h1

theorem FbuChange.done_clearers (h1 : s.fbu.done = true) (h0 : g.done = false) :
    e = .reset ∨ accepted s e ∨ issues .abort e := by
  cases h with
  | reset => exact .inl rfl
  | raster hi hp => exact .inr (.inl ⟨hp, .inr hi⟩)
  | abort hi => exact .inr (.inr hi)
  | beat hp => obtain hd | ⟨hd, -⟩ := s.fbu.afterBeat_done <;> simp [hd, h1] at h0
  | _ => simp [h1] at h0

theorem FbuChange.errc_writers (hne : g.errc ≠ s.fbu.errc) :
    ((e = .reset ∨ issues .abort e) ∧ g.errc = .none) ∨ (s.fbu.errc = .none ∧ rejected s e) := by
  have hnone {c : ErrCause} (hc : (s.fbu.recordError c).errc ≠ s.fbu.errc) : s.fbu.errc = .none :=
    Decidable.byContradiction fun h => hc (Fbu.recordError_errc_of_ne h)
  cases h with
  | reset => exact .inl ⟨.inl rfl, rfl⟩
  | abort hi => exact .inl ⟨.inr hi, rfl⟩
  | reserved hw hd => exact .inr ⟨hnone hne, .inl ⟨_, _, hw, hd⟩⟩
  | busy hi hp => exact .inr ⟨hnone hne, .inr ⟨hp, hi⟩⟩
  | _ => simp at hne

theorem FbuChange.phase_writers (hne : g.phase ≠ s.fbu.phase) :
    e = .reset ∨ issues .abort e ∨ (s.fbu.phase = .idle ∧ issues .raster e ∧ g.phase = .fetch) ∨
      (e = .fbu ∧ s.fbu.phase = .fetch ∧ g.phase = .emit) ∨ (e = .fbu ∧ s.fbu.phase = .emit ∧ g.phase ≠ .emit) := by
  cases h with
  | reset => exact .inl rfl
  | abort hi => exact .inr (.inl hi)
  | raster hi hp => exact .inr (.inr (.inl ⟨hp, hi, Fbu.startRaster_phase_of_ne hne⟩))
  | payload p hp | slot hp => exact .inr (.inr (.inr (.inl ⟨rfl, hp, rfl⟩)))
  | beat hp => exact .inr (.inr (.inr (.inr ⟨rfl, hp, hp ▸ hne⟩)))
  | _ => simp at hne

theorem FbuChange.position_writers (hne : g.y ≠ s.fbu.y ∨ g.xb ≠ s.fbu.xb ∨ g.j ≠ s.fbu.j) :
    e = .reset ∨ accepted s e ∨ (e = .fbu ∧ s.fbu.phase = .emit) := by
  cases h with
  | reset => exact .inl rfl
  | measure hi hp => exact .inr (.inl ⟨hp, .inl hi⟩)
  | raster hi hp => exact .inr (.inl ⟨hp, .inr hi⟩)
  | beat hp => exact .inr (.inr ⟨rfl, hp⟩)
  | _ => simp at hne

theorem FbuChange.cb_writers (hne : g.cb ≠ s.fbu.cb) :
    e = .reset ∨ accepted s e ∨ (e = .fbu ∧ s.fbu.phase = .fetch) := by
  cases h with
  | reset => exact .inl rfl
  | measure hi hp => exact .inr (.inl ⟨hp, .inl hi⟩)
  | raster hi hp => exact .inr (.inl ⟨hp, .inr hi⟩)
  | payload p hp | slot hp => exact .inr (.inr ⟨rfl, hp⟩)
  | _ => simp at hne

theorem FbuChange.incount_writers (hne : g.incount ≠ s.fbu.incount) :
    ((e = .reset ∨ accepted s e) ∧ g.incount = 0) ∨
      (e = .fbu ∧ s.fbu.phase = .fetch ∧ g.incount = s.fbu.incount + 1) := by
  cases h with
  | reset => exact .inl ⟨.inl rfl, rfl⟩
  | measure hi hp => exact .inl ⟨.inr ⟨hp, .inl hi⟩, by simp⟩
  | raster hi hp => exact .inl ⟨.inr ⟨hp, .inr hi⟩, by simp⟩
  | payload p hp => exact .inr ⟨rfl, hp, rfl⟩
  | _ => simp at hne

theorem FbuChange.outcount_writers (hne : g.outcount ≠ s.fbu.outcount) :
    ((e = .reset ∨ accepted s e) ∧ g.outcount = 0) ∨
      (e = .fbu ∧ s.fbu.phase = .emit ∧ g.outcount = s.fbu.outcount + 1) := by
  cases h with
  | reset => exact .inl ⟨.inl rfl, rfl⟩
  | measure hi hp => exact .inl ⟨.inr ⟨hp, .inl hi⟩, by simp⟩
  | raster hi hp => exact .inl ⟨.inr ⟨hp, .inr hi⟩, by simp⟩
  | beat hp => exact .inr ⟨rfl, hp, by simp⟩
  | _ => simp at hne

end

/-- Settles O11: a step changes the FBU in one of the ways of `FbuChange`, and each of these writes only its own
elements. -/
theorem storedElementsChangeOnlyByTheirWriters : Obligations.StoredElementsChangeOnlyByTheirWriters := by
  intro s t hst
  have h := fbuChange_of_step hst
  exact ⟨h.geom_writers, h.latched_writers, h.done_setters, h.done_clearers, h.errc_writers, h.phase_writers,
    h.position_writers, h.cb_writers, h.incount_writers, h.outcount_writers⟩

end Sys2Proof.Machine
end

section
/-! One 32-bit host access as one step: what a read answers and what a write does (20_memory.md R51, R52). -/

namespace Sys2Proof.Machine

section
variable {s : State} {rest : List Event} {off : Nat} (h4 : off % 4 = 0) (hle : off ≤ 0x3C)
include h4 hle

theorem step_of_read (he : s.events = .host { off := off, width := 32, kind := .read } :: rest) :
    step s = .next { s with events := rest, response := .data (regRead off s.fbu) } := by
  have hok : accessOk { off := off, width := 32, kind := .read } = true := (accessOk_iff _).2 ⟨rfl, h4, hle⟩
  simp only [step_of_events he, handleEvent, regAccess, hok, if_true]
  rfl

theorem step_of_write {v : Word} (he : s.events = .host { off := off, width := 32, kind := .write v } :: rest) :
    step s = regWrite off v { s with events := rest, response := .written } := by
  have hok : accessOk { off := off, width := 32, kind := .write v } = true := (accessOk_iff _).2 ⟨rfl, h4, hle⟩
  simp only [step_of_events he, handleEvent, regAccess, hok, if_true]
  rfl

end

theorem regOffset_lt (r : Reg) : regOffset r < 0x28 := by cases r <;> decide

theorem regAt_of_ge {off : Nat} (h : 0x28 ≤ off) : regAt off = none := by
  refine Option.eq_none_iff_forall_ne_some.2 fun r hr => ?_
  have := (regAt_eq_some_iff off r).1 hr
  have := regOffset_lt r
  omega

theorem regRead_of_ge {off : Nat} (h : 0x28 ≤ off) (f : Fbu) : regRead off f = 0 := by
  simp [regRead, regAt_of_ge h]

/-- Only GEOM and CMD, the registers below 0x08, take a write. -/
theorem regWrite_of_ge {off : Nat} (h : 0x08 ≤ off) (v : Word) (s : State) : regWrite off v s = .next s := by
  have hne {r : Reg} (hr : regAt off = some r) (hlt : regOffset r < 0x08) : False := by
    have := (regAt_eq_some_iff off r).1 hr
    omega
  unfold regWrite
  split
  · next hr => exact (hne hr (by decide)).elim
  · next hr => exact (hne hr (by decide)).elim
  · rfl

theorem ignoresWrites_of_ge {off : Nat} (h4 : off % 4 = 0) (hge : 0x08 ≤ off) (hle : off ≤ 0x3C) :
    ignoresWrites off := by
  intro s rest v he
  rw [step_of_write h4 hle he, regWrite_of_ge hge]

end Sys2Proof.Machine
end

section
/-! STATUS as the number that its fields make, and each field read back from it (10_state.md R25). -/

namespace Sys2Proof.Machine

theorem phaseCode_le (p : Phase) : phaseCode p ≤ 2 := by cases p <;> decide

theorem errCode_le (c : ErrCause) : errCode c ≤ 2 := by cases c <;> decide

theorem busyFlag_iff (f : Fbu) : busyFlag f = true ↔ f.phase ≠ .idle := by
  unfold busyFlag
  cases f.phase <;> decide

theorem cmdErrFlag_iff (f : Fbu) : cmdErrFlag f = true ↔ f.errc ≠ .none := by
  unfold cmdErrFlag
  cases f.errc <;> decide

theorem emptyFlag_iff (f : Fbu) : emptyFlag f = true ↔ f.lw.toInt ≤ 0 ∨ f.lh.toInt ≤ 0 := by
  rw [emptyFlag, isEmpty_eq_true_iff, sext16_eq_toInt, sext16_eq_toInt]

theorem statusWord_toNat (f : Fbu) :
    (statusWord f).toNat =
      (busyFlag f).toNat + 2 * f.done.toNat + 4 * (emptyFlag f).toNat + 8 * (cmdErrFlag f).toNat
        + 16 * phaseCode f.phase + 64 * errCode f.errc := by
  have := phaseCode_le f.phase
  have := errCode_le f.errc
  have := (busyFlag f).toNat_le
  have := f.done.toNat_le
  have := (emptyFlag f).toNat_le
  have := (cmdErrFlag f).toNat_le
  rw [statusWord, BitVec.toNat_ofNat]
  omega

/-- Bit `k` of a word is the digit of its value at `2 ^ k`. -/
theorem getLsbD_eq_of_digit {w : Word} {k : Nat} {b : Bool} (h : w.toNat / 2 ^ k % 2 = b.toNat) :
    w.getLsbD k = b := by
  rw [BitVec.getLsbD, Nat.testBit_eq_decide_div_mod_eq, h]
  cases b <;> rfl

/-- Every field of STATUS is read back from its value. -/
theorem statusWord_fields (f : Fbu) :
    (statusWord f).getLsbD 0 = busyFlag f ∧ (statusWord f).getLsbD 1 = f.done ∧
      (statusWord f).getLsbD 2 = emptyFlag f ∧ (statusWord f).getLsbD 3 = cmdErrFlag f ∧
      ((statusWord f).extractLsb' 4 2).toNat = phaseCode f.phase ∧
      ((statusWord f).extractLsb' 6 2).toNat = errCode f.errc ∧ (statusWord f).extractLsb' 8 24 = 0 := by
  have hv := statusWord_toNat f
  have := phaseCode_le f.phase
  have := errCode_le f.errc
  have := (busyFlag f).toNat_le
  have := f.done.toNat_le
  have := (emptyFlag f).toNat_le
  have := (cmdErrFlag f).toNat_le
  refine ⟨getLsbD_eq_of_digit ?_, getLsbD_eq_of_digit ?_, getLsbD_eq_of_digit ?_, getLsbD_eq_of_digit ?_, ?_, ?_,
    BitVec.eq_of_toNat_eq ?_⟩ <;>
    simp only [BitVec.extractLsb'_toNat, Nat.shiftRight_eq_div_pow, hv, BitVec.ofNat_eq_ofNat, BitVec.toNat_ofNat] <;>
    omega

/-- Settles O17: STATUS is the number that its fields make, so each field is read back from it. -/
theorem statusReadsItsFields : Obligations.StatusReadsItsFields := by
  refine ⟨by decide, ignoresWrites_of_ge (by decide) (by decide) (by decide), fun s rest he => ?_⟩
  obtain ⟨hbusy, hdone, hempty, herr, hphase, hcause, hrest⟩ := statusWord_fields s.fbu
  exact ⟨statusWord s.fbu, step_of_read (by decide) (by decide) he, by rw [hbusy, busyFlag_iff], hdone,
    by rw [hempty, emptyFlag_iff], by rw [herr, cmdErrFlag_iff], hphase, hcause, hrest⟩

/-- Settles O15: no register from 0x08 on takes a write, no register lies from 0x28 on, and CMD reads 0. -/
theorem readOnlyAndReservedOffsets : Obligations.ReadOnlyAndReservedOffsets := by
  refine ⟨fun off => ignoresWrites_of_ge, fun f => ?_, fun s rest off h4 hoff hle he => ?_⟩
  · obtain ⟨-, -, -, -, -, -, hrest⟩ := statusWord_fields f
    exact hrest
  · have hzero : regRead off s.fbu = 0 := hoff.elim (fun h => h ▸ rfl) (regRead_of_ge · s.fbu)
    rw [step_of_read h4 hle he, hzero]

end Sys2Proof.Machine
end


section
/-! GEOM: its write and its read, and that the FBU's own turn does not look at it (10_state.md R23). -/

namespace Sys2Proof.Machine

theorem Fbu.nextByte_writeGeom (g : Word) (f : Fbu) : (f.writeGeom g).nextByte = f.nextByte.writeGeom g := by
  unfold Fbu.nextByte
  rw [apply_ite (Fbu.writeGeom g)]
  rfl

theorem Fbu.endByte_writeGeom (g : Word) (f : Fbu) : (f.writeGeom g).endByte = f.endByte.writeGeom g := by
  unfold Fbu.endByte
  rw [apply_ite (Fbu.writeGeom g)]
  rfl

theorem Fbu.afterBeat_writeGeom (g : Word) (f : Fbu) : (f.writeGeom g).afterBeat = f.afterBeat.writeGeom g := by
  have hbyte : (f.writeGeom g).countBeat.nextByte.endByte = f.countBeat.nextByte.endByte.writeGeom g := by
    rw [← Fbu.endByte_writeGeom, ← Fbu.nextByte_writeGeom]
    rfl
  unfold Fbu.afterBeat
  rw [hbyte, apply_ite (Fbu.writeGeom g)]
  rfl

/-- The machine with another value in GEOM. -/
def State.withGeom (g : Word) (s : State) : State := s.withFbu (s.fbu.writeGeom g)

@[simp] theorem State.withGeom_fbu (g : Word) (s : State) : (s.withGeom g).fbu = s.fbu.writeGeom g := rfl
@[simp] theorem State.withGeom_inStream (g : Word) (s : State) : (s.withGeom g).inStream = s.inStream := rfl
@[simp] theorem State.withGeom_sinkReady (g : Word) (s : State) : (s.withGeom g).sinkReady = s.sinkReady := rfl
@[simp] theorem State.withGeom_events (g : Word) (s : State) : (s.withGeom g).events = s.events := rfl

@[simp] theorem State.withFbu_withGeom (f : Fbu) (g : Word) (s : State) :
    (s.withFbu f).withGeom g = s.withFbu (f.writeGeom g) := rfl
@[simp] theorem State.withGeom_withFbu (f : Fbu) (g : Word) (s : State) : (s.withGeom g).withFbu f = s.withFbu f := rfl

@[simp] theorem Fbu.loadPayload_writeGeom (p : Byte) (g : Word) (f : Fbu) :
    (f.writeGeom g).loadPayload p = (f.loadPayload p).writeGeom g := rfl
@[simp] theorem Fbu.loadSlot_writeGeom (g : Word) (f : Fbu) : (f.writeGeom g).loadSlot = f.loadSlot.writeGeom g := rfl
@[simp] theorem emitBeat_writeGeom (g : Word) (f : Fbu) : emitBeat (f.writeGeom g) = emitBeat f := rfl
@[simp] theorem byteIndex_writeGeom (g : Word) (f : Fbu) : byteIndex (f.writeGeom g) = byteIndex f := rfl

theorem fetchStep_withGeom (g : Word) (s : State) :
    fetchStep (s.withGeom g) = (fetchStep s).map (State.withGeom g) := by
  unfold fetchStep State.inPop
  by_cases hb : byteIndex s.fbu < payloadSize s.fbu.lw s.fbu.lh
  · cases hin : s.inStream <;> simp [hb, hin]
    rfl
  · simp [hb]

theorem emitStep_withGeom (g : Word) (s : State) :
    emitStep (s.withGeom g) = (emitStep s).map (State.withGeom g) := by
  unfold emitStep State.outPush
  cases h : s.sinkReady
  · simp [h]
  · simp [h, Fbu.afterBeat_writeGeom]
    rfl

theorem fbuTurn_withGeom (g : Word) (s : State) : fbuTurn (s.withGeom g) = (fbuTurn s).withGeom g := by
  have hstep : fbuStep (s.withGeom g) = (fbuStep s).map (State.withGeom g) := by
    unfold fbuStep
    cases hp : s.fbu.phase
    · simp [hp]
    · simp [hp, fetchStep_withGeom]
    · simp [hp, emitStep_withGeom]
  unfold fbuTurn
  rw [hstep]
  cases fbuStep s <;> rfl

theorem geom_of_step {s t : State} (hst : step s = .next t) (hg : geomWritten s.nextEvent = none)
    (hr : s.nextEvent ≠ .reset) : t.fbu.geom = s.fbu.geom :=
  Decidable.byContradiction fun hne => by
    obtain h | h := (fbuChange_of_step hst).geom_writers hne
    · exact hr h
    · simp [hg] at h

theorem runSteps_succ_of_step {s t : State} (h : step s = .next t) (n : Nat) : runSteps (n + 1) s = runSteps n t := by
  rw [runSteps_succ, (step_next_iff s t).1 h]

/-- A GEOM write, then the GEOM read. -/
theorem runSteps_geom_write_read {s : State} {rest : List Event} {v : Word}
    (he : s.events = .host { off := 0x00, width := 32, kind := .write v } ::
      .host { off := 0x00, width := 32, kind := .read } :: rest) :
    runSteps 2 s = .next { s with events := rest, response := .data v, fbu := { s.fbu with geom := v } } := by
  have hwrite := step_of_write (by decide) (by decide) he
  rw [runSteps_succ_of_step hwrite, runSteps_succ_of_step (step_of_read (by decide) (by decide) rfl)]
  rfl

theorem step_withGeom_of_fbu {s t : State} {rest : List Event} (g : Word) (he : s.events = .fbu :: rest)
    (hst : step s = .next t) : step (s.withGeom g) = .next (t.withGeom g) := by
  have ht : t = fbuTurn (s.withEvents rest) := by
    rw [step_of_events he] at hst
    exact (Host.Outcome.next.inj hst).symm
  rw [ht, ← fbuTurn_withGeom]
  exact step_of_events (s := s.withGeom g) he

/-- Settles O16: the write is a plain update of GEOM, `FbuChange` names its only writers, and the FBU's turn commutes
with any change of GEOM. -/
theorem geomWriteReadsBack : Obligations.GeomWriteReadsBack :=
  ⟨rfl, fun _ => ⟨rfl, rfl⟩, fun _ _ _ => runSteps_geom_write_read, fun _ _ => geom_of_step,
    fun _ _ _ g => step_withGeom_of_fbu g⟩

end Sys2Proof.Machine
end

section
/-! The registers of the latched geometry, of the counters and of the position (10_state.md R26 to R29), and what every
register reads at reset (R34). -/

namespace Sys2Proof.Machine

theorem rasterWidth_le (lw lh : Half) : rasterWidth lw lh ≤ 32768 := by
  have := rowBytes_le lw lh
  rw [rasterWidth_eq]
  omega

theorem columnOf_le (f : Fbu) : columnOf f ≤ 32767 := by
  unfold columnOf
  omega

theorem sizeRead_toNat (f : Fbu) : (regRead 0x10 f).toNat = payloadSize f.lw f.lh := by
  have := payloadSize_le f.lw f.lh
  exact (BitVec.toNat_ofNat ..).trans (Nat.mod_eq_of_lt (by omega))

theorem rowbytesRead_toNat (f : Fbu) : (regRead 0x14 f).toNat = rowBytes f.lw f.lh := by
  have := rowBytes_le f.lw f.lh
  exact (BitVec.toNat_ofNat ..).trans (Nat.mod_eq_of_lt (by omega))

theorem dimRead_width (f : Fbu) : ((regRead 0x18 f).extractLsb' 0 16).toNat = rasterWidth f.lw f.lh := by
  have := rasterWidth_le f.lw f.lh
  rw [show regRead 0x18 f = dimWord f from rfl, dimWord, extractLsb'_low_half]
  exact (BitVec.toNat_ofNat ..).trans (Nat.mod_eq_of_lt (by omega))

theorem dimRead_height (f : Fbu) : ((regRead 0x18 f).extractLsb' 16 16).toNat = rasterHeight f.lw f.lh := by
  have := rasterHeight_le f.lw f.lh
  rw [show regRead 0x18 f = dimWord f from rfl, dimWord, extractLsb'_high_half]
  exact (BitVec.toNat_ofNat ..).trans (Nat.mod_eq_of_lt (by omega))

theorem posRead_column (f : Fbu) : ((regRead 0x24 f).extractLsb' 0 16).toNat = columnOf f := by
  have := columnOf_le f
  rw [show regRead 0x24 f = posWord f from rfl, posWord, extractLsb'_low_half]
  exact (BitVec.toNat_ofNat ..).trans (Nat.mod_eq_of_lt (by omega))

theorem posRead_row (f : Fbu) : (regRead 0x24 f).extractLsb' 16 16 = f.y := extractLsb'_high_half _ _

/-- The row after a completed job that has delivered a beat (10_state.md R29, R33). -/
theorem JobInv.row_of_done {f : Fbu} (h : JobInv f) (hd : f.done = true) (ho : f.outcount ≠ 0) :
    f.y.toNat = rasterHeight f.lw f.lh := by
  obtain ⟨-, -, ⟨-, -, hzero⟩ | ⟨hy, -, -⟩⟩ := h.done_position hd
  · exact absurd hzero ho
  · exact hy

/-- At reset every register reads 0 but STATUS, where EMPTY is set (10_state.md R34). -/
theorem regRead_reset {off : Nat} (h : off ≠ 0x08) : regRead off State.reset.fbu = 0 := by
  unfold regRead
  split
  · next r hr =>
    have := (regAt_eq_some_iff off r).1 hr
    cases r
    case status => exact absurd this h
    all_goals rfl
  · rfl

/-- Settles O34. -/
theorem resetLeavesEveryElementAtItsValue : Obligations.ResetLeavesEveryElementAtItsValue :=
  ⟨rfl, rfl, regRead_reset (by decide), regRead_reset (by decide), regRead_reset (by decide),
    regRead_reset (by decide), regRead_reset (by decide)⟩

/-- Settles O18: each register holds its value without truncation, because the value is in R27's range. -/
theorem geometryRegistersReadExactly : Obligations.GeometryRegistersReadExactly := by
  refine ⟨fun off hoff => ⟨regRead_reset (by omega), ignoresWrites_of_ge (by omega) (by omega) (by omega)⟩,
    fun f => ⟨extractLsb'_low_half _ _, extractLsb'_high_half _ _, sizeRead_toNat f, ?_, rowbytesRead_toNat f,
      rowBytes_le _ _, dimRead_width f, rasterWidth_le _ _, dimRead_height f, rasterHeight_le _ _⟩⟩
  exact payloadSize_le _ _

/-- Settles O19: POS packs the row and the column without truncation, and the bounds are the job invariant's. -/
theorem countersAndPositionRead : Obligations.CountersAndPositionRead := by
  refine ⟨fun off hoff => ⟨regRead_reset (by omega), ignoresWrites_of_ge (by omega) (by omega) (by omega)⟩,
    fun f => ⟨rfl, rfl, posRead_column f, posRead_column f ▸ columnOf_le f, posRead_row f, fun h => ?_⟩⟩
  rw [posRead_row]
  exact ⟨h.incount_le, h.outcount_le, h.outcount_le.trans (jobLength_le _ _), h.y_le.trans (rasterHeight_le _ _),
    h.row_of_done⟩

end Sys2Proof.Machine
end

section
/-! The access check: what a fetch and a refused access do as one step (20_memory.md R51). -/

namespace Sys2Proof.Machine

/-- A fetch from the window answers as a read does (20_memory.md R51, log entry 18). -/
theorem step_of_fetch {s : State} {rest : List Event} {off : Nat} (h4 : off % 4 = 0) (hle : off ≤ 0x3C)
    (he : s.events = .host { off := off, width := 32, kind := .fetch } :: rest) :
    step s = .next { s with events := rest, response := .data (regRead off s.fbu) } := by
  have hok : accessOk { off := off, width := 32, kind := .fetch } = true := (accessOk_iff _).2 ⟨rfl, h4, hle⟩
  simp only [step_of_events he, handleEvent, regAccess, hok, if_true]
  rfl

theorem step_of_refused_access {s : State} {rest : List Event} {a : Access} (he : s.events = .host a :: rest)
    (h : a.width ≠ 32 ∨ a.off % 4 ≠ 0 ∨ 0x3C < a.off) :
    step s = .next { s with events := rest, response := .busError a.off a.width } := by
  have hok : ¬ accessOk a = true := by
    rw [accessOk_iff]
    omega
  simp only [step_of_events he, handleEvent, regAccess, if_neg hok]
  rfl

/-- Settles O14: an access either fails the check of R51 or is one 32-bit read, fetch or write in the window. -/
theorem onlyAlignedWordAccessesReachARegister : Obligations.OnlyAlignedWordAccessesReachARegister := by
  rintro s rest ⟨off, width, kind⟩ he
  refine ⟨step_of_refused_access he, ?_⟩
  rintro rfl h4 hle
  refine ⟨?_, ?_⟩
  · rintro (rfl | rfl)
    · exact step_of_read h4 hle he
    · exact step_of_fetch h4 hle he
  · rintro v rfl
    exact step_of_write h4 hle he

end Sys2Proof.Machine
end

section
/-! OUT: only the FBU's turn in EMIT with the sink ready delivers a beat (20_memory.md R59). -/

namespace Sys2Proof.Machine

theorem eventState_outStream_of_ne {e : Event} (hne : e ≠ .fbu) (s : State) :
    (eventState e s).outStream = s.outStream := by
  cases e with
  | fbu => exact absurd rfl hne
  | bus a =>
    simp only [eventState]
    split <;> rfl
  | _ => rfl

theorem eventState_outcount_of_ne {e : Event} (hne : e ≠ .fbu) (s : State) :
    (eventState e s).fbu.outcount = s.fbu.outcount ∨ (eventState e s).fbu.outcount = 0 := by
  by_cases hsame : (eventState e s).fbu.outcount = s.fbu.outcount
  · exact .inl hsame
  · obtain ⟨-, hzero⟩ | ⟨hfbu, -⟩ := (fbuChange_eventState e s).outcount_writers hsame
    · exact .inr hzero
    · exact absurd hfbu hne

/-- The FBU's turn in EMIT with the sink ready delivers its beat at the end of OUT and counts it. -/
theorem fbuTurn_of_delivers {s : State} (hp : s.fbu.phase = .emit) (hr : s.sinkReady = true) :
    (fbuTurn s).outStream = s.outStream ++ [emitBeat s.fbu] ∧ (fbuTurn s).fbu.outcount = s.fbu.outcount + 1 := by
  simp [fbuTurn, fbuStep, hp, emitStep, State.outPush, hr]

/-- Every other turn of the FBU, a FETCH or one at which no step is enabled, leaves OUT and its count. -/
theorem fbuTurn_of_not_delivers {s : State} (h : ¬ (s.fbu.phase = .emit ∧ s.sinkReady = true)) :
    (fbuTurn s).outStream = s.outStream ∧ (fbuTurn s).fbu.outcount = s.fbu.outcount := by
  obtain hstep | ⟨-, hsame⟩ := fbuTurn_cases s
  · obtain ⟨p, rest, -, -, -, ht⟩ | ⟨-, -, ht⟩ | ⟨hp, hr, -⟩ := fbuStep_cases hstep
    · simp [ht]
    · simp [ht]
    · exact absurd ⟨hp, hr⟩ h
  · simp [hsame]

/-- Settles O31: an event that is not the FBU's turn leaves OUT, and the turn delivers exactly in EMIT with the sink
ready. -/
theorem outGrowsOnlyByEmit : Obligations.OutGrowsOnlyByEmit := by
  intro s t hst
  obtain rfl := (step_next_iff s t).1 hst
  unfold stepState
  rw [← s.takeEvent_fbu, ← s.takeEvent_outStream, ← s.takeEvent_sinkReady]
  by_cases he : s.nextEvent = .fbu
  · rw [he]
    by_cases hd : s.takeEvent.fbu.phase = .emit ∧ s.takeEvent.sinkReady = true
    · obtain ⟨hp, hr⟩ := hd
      exact .inl ⟨rfl, hp, hr, fbuTurn_of_delivers hp hr⟩
    · obtain ⟨hout, hcount⟩ := fbuTurn_of_not_delivers hd
      exact .inr ⟨fun h => hd h.2, hout, .inl hcount⟩
  · exact .inr ⟨fun h => he h.1, eventState_outStream_of_ne he _, eventState_outcount_of_ne he _⟩

end Sys2Proof.Machine
end

section
/-! The decoder as a relation: which words it accepts, and the expansions of the host notation (30_encoding.md R81,
R84, R90). -/

namespace Sys2Proof.Machine

theorem decode_eq_ok_iff (w : Word) (i : Instr) : decode w = .ok i ↔ w = encode i := by
  refine ⟨eq_encode_of_decode, ?_⟩
  rintro rfl
  exact decode_encode_eq i

/-- The decoder reads the opcode map wherever `RSVD = 0`. -/
theorem decode_eq_ok_iff_fields (w : Word) (i : Instr) :
    decode w = .ok i ↔ rsvdField w = 0 ∧ opcodeOf (opField w) = some i := by
  unfold decode
  by_cases hr : rsvdField w = 0
  · cases hop : opcodeOf (opField w) <;> simp [hr]
  · rw [if_neg hr]
    exact ⟨nofun, fun h => absurd h.1 hr⟩

/-- The opcode map has a row for 0 to 3 and for no other value of `OP`. -/
theorem exists_opcodeOf_iff (op : BitVec 4) : (∃ i, opcodeOf op = some i) ↔ op.toNat ≤ 3 := by
  rw [← Option.isSome_iff_exists]
  revert op
  decide

theorem exists_decode_iff (w : Word) :
    (∃ i, decode w = .ok i) ↔ rsvdField w = 0 ∧ (opField w).toNat ≤ 3 := by
  simp only [decode_eq_ok_iff_fields, exists_and_left, exists_opcodeOf_iff]

theorem decode_of_ne_encode {w : Word} (h : ∀ i, w ≠ encode i) : decode w = .error (.reserved w) := by
  cases hd : decode w with
  | ok i => exact absurd (eq_encode_of_decode hd) (h i)
  | error r => rw [reject_eq_reserved hd]

/-- Settles O3: the decoder inverts `encode`, the opcode map has four rows, and a rejected word is rejected under its
own name. -/
theorem exactlyTheValidWordsDecode : Obligations.ExactlyTheValidWordsDecode :=
  fun w => ⟨decode_eq_ok_iff w, exists_decode_iff w, decode_of_ne_encode⟩

theorem lineEvents_cmd (i : Instr) : lineEvents (.cmd i) = lineEvents (.wr .cmd (encode i)) := rfl

theorem lineEvents_glyph (w h : Int) : lineEvents (.glyph w h) = lineEvents (.wr .geom (glyphWord w h)) := rfl

/-- Settles O45. -/
theorem pseudoInstructionsExpand : Obligations.PseudoInstructionsExpand := by
  have hpos : glyphWord 8 4 = 0x00040008#32 := by decide
  have hneg : glyphWord (-1) 8 = 0x0008FFFF#32 := by decide
  exact ⟨lineEvents_cmd .nop, lineEvents_cmd .measure, lineEvents_cmd .raster, lineEvents_cmd .abort,
    hpos ▸ lineEvents_glyph 8 4, hneg ▸ lineEvents_glyph (-1) 8⟩

end Sys2Proof.Machine
end

section
/-! The beat: what each of its flags says of the pixel's column, row and grid byte (30_encoding.md R85, 41_raster.md
R133, R134, R136). -/

namespace Sys2Proof.Machine

theorem classCode_le (c : PixelClass) : classCode c ≤ 2 := by cases c <;> decide

theorem classCode_pixelClass (lw lh : Half) (y b : Nat) :
    classCode (pixelClass lw lh y b) =
      if (y : Int) < lh.toInt then 0 else if b < payloadSize lw lh then 1 else 2 := by
  have hrow : y < logicalHeight lh ↔ (y : Int) < lh.toInt := by
    rw [logicalHeight, Int.lt_toNat, sext16_eq_toInt]
  simp only [pixelClass, hrow, apply_ite classCode]
  rfl

theorem eorFlag_iff (lw lh : Half) (x : Nat) : eorFlag lw lh x = true ↔ (x : Int) = rasterWidth lw lh - 1 := by
  rw [eorFlag, beq_iff_eq]
  omega

theorem eogFlag_iff (lw lh : Half) (x y : Nat) :
    eogFlag lw lh x y = true ↔ (x : Int) = rasterWidth lw lh - 1 ∧ (y : Int) = rasterHeight lw lh - 1 := by
  rw [eogFlag, Bool.and_eq_true, eorFlag_iff, beq_iff_eq]
  omega

theorem colpadFlag_iff (lw : Half) (x : Nat) : colpadFlag lw x = true ↔ lw.toInt ≤ (x : Int) := by
  rw [colpadFlag, decide_eq_true_iff, sext16_eq_toInt]

/-- The fields of the beat of EMIT, read back from its value. -/
theorem emitBeat_fields (f : Fbu) :
    (emitBeat f).getLsbD 0 = pixelBit f.cb f.j.toNat ∧
      ((emitBeat f).extractLsb' 1 2).toNat = classCode (pixelClass f.lw f.lh f.y.toNat (byteIndex f)) ∧
      (emitBeat f).getLsbD 3 = eorFlag f.lw f.lh (columnOf f) ∧
      (emitBeat f).getLsbD 4 = eogFlag f.lw f.lh (columnOf f) f.y.toNat ∧
      (emitBeat f).getLsbD 5 = colpadFlag f.lw (columnOf f) :=
  packBeat_fields _

theorem emitBeat_class_ne_three (f : Fbu) : (emitBeat f).extractLsb' 1 2 ≠ 3 := by
  obtain ⟨-, hcls, -⟩ := emitBeat_fields f
  intro h3
  have hle := classCode_le (pixelClass f.lw f.lh f.y.toNat (byteIndex f))
  rw [← hcls, h3] at hle
  exact absurd hle (by decide)

/-- Settles O26: every field of the beat is read back from its value, and each flag is the condition on the pixel that
R85, R134 and R136 give. -/
theorem beatCarriesThePixelAndItsFlags : Obligations.BeatCarriesThePixelAndItsFlags := by
  rintro f x y b rfl rfl rfl
  obtain ⟨hpix, hcls, heor, heog, hpad⟩ := emitBeat_fields f
  have heor' := heor ▸ eorFlag_iff f.lw f.lh (columnOf f)
  have heog' := heog ▸ eogFlag_iff f.lw f.lh (columnOf f) f.y.toNat
  exact ⟨hpix, hcls.trans (classCode_pixelClass _ _ _ _), heor', heog', hpad ▸ colpadFlag_iff f.lw (columnOf f),
    emitBeat_class_ne_three f, fun h => heor'.2 (heog'.1 h).1⟩

end Sys2Proof.Machine
end

section
/-! The geometry functions over the two's complement integers of the latched pattern (40_geometry.md R101 to R105). -/

namespace Sys2Proof.Machine

theorem isEmpty_iff_toInt (lw lh : Half) : isEmpty lw lh = true ↔ lw.toInt ≤ 0 ∨ lh.toInt ≤ 0 := by
  rw [isEmpty_eq_true_iff, sext16_eq_toInt, sext16_eq_toInt]

theorem logicalWidth_eq_toNat (lw : Half) : logicalWidth lw = lw.toInt.toNat := by
  rw [logicalWidth, sext16_eq_toInt]

theorem logicalHeight_eq_toNat (lh : Half) : logicalHeight lh = lh.toInt.toNat := by
  rw [logicalHeight, sext16_eq_toInt]

theorem dataBytes_eq_toInt {lw lh : Half} (hh : 0 < lh.toInt) :
    (dataBytes lw lh : Int) = lh.toInt * rowBytes lw lh := by
  rw [dataBytes, logicalHeight_eq_toNat, Nat.cast_mul, Int.toNat_of_nonneg hh.le]

section
variable {lw lh : Half} (hw : 0 < lw.toInt) (hh : 0 < lh.toInt)
include hw hh

theorem isEmpty_eq_false_of_pos : isEmpty lw lh = false := by
  rw [isEmpty_eq_false_iff, logicalWidth_eq_toNat, logicalHeight_eq_toNat]
  omega

theorem rowBytes_eq_toInt : (rowBytes lw lh : Int) = (lw.toInt + 7) / 8 := by
  rw [rowBytes_of_not_isEmpty (isEmpty_eq_false_of_pos hw hh), logicalWidth_eq_toNat]
  omega

theorem rasterHeight_eq_toInt : (rasterHeight lw lh : Int) = 4 * ((lh.toInt + 3) / 4) := by
  rw [rasterHeight_of_not_isEmpty (isEmpty_eq_false_of_pos hw hh), logicalHeight_eq_toNat]
  omega

theorem payloadSize_eq_toInt : (payloadSize lw lh : Int) = (lh.toInt * rowBytes lw lh + 3) / 4 * 4 := by
  rw [payloadSize_of_not_isEmpty (isEmpty_eq_false_of_pos hw hh), ← dataBytes_eq_toInt hh]
  omega

theorem four_le_payloadSize : 4 ≤ payloadSize lw lh := by
  have hne := isEmpty_eq_false_of_pos hw hh
  have hpos := payloadSize_pos hne
  rw [payloadSize_of_not_isEmpty hne] at hpos ⊢
  omega

theorem four_le_rasterHeight : 4 ≤ rasterHeight lw lh := by
  have := rasterHeight_eq_toInt hw hh
  omega

theorem eight_le_rasterWidth : 8 ≤ rasterWidth lw lh := by
  have := rowBytes_pos (isEmpty_eq_false_of_pos hw hh)
  rw [rasterWidth_eq]
  omega

end

/-- Settles O21: an empty glyph has only zeros; for any other one the natural-number formulas are those of R102 to R105
over the integers, as both operands are positive. -/
theorem geometryFunctionsOfAGlyph : Obligations.GeometryFunctionsOfAGlyph := by
  refine fun lw lh => ⟨isEmpty_iff_toInt lw lh, fun hempty => ?_, fun hw hh => ?_⟩
  · have he := (isEmpty_iff_toInt lw lh).2 hempty
    exact ⟨rowBytes_of_isEmpty he, payloadSize_of_isEmpty he, rasterWidth_of_isEmpty he, rasterHeight_of_isEmpty he⟩
  · exact ⟨rowBytes_eq_toInt hw hh, rowBytes_pos (isEmpty_eq_false_of_pos hw hh), rowBytes_le lw lh,
      payloadSize_eq_toInt hw hh, four_le_payloadSize hw hh, payloadSize_le lw lh, rasterWidth_eq lw lh,
      eight_le_rasterWidth hw hh, rasterWidth_le lw lh, rasterHeight_eq_toInt hw hh, four_le_rasterHeight hw hh,
      rasterHeight_le lw lh⟩

end Sys2Proof.Machine
end

section
/-! MEASURE, accepted and rejected (40_geometry.md R110, 42_control.md R173). -/

namespace Sys2Proof.Machine

theorem exec_measure_of_idle {s : State} (h : s.fbu.phase = .idle) :
    exec .measure s = .next (s.withFbu (s.fbu.latch.setDone true)) :=
  if_pos h

theorem exec_measure_of_busy {s : State} (h : s.fbu.phase ≠ .idle) :
    exec .measure s = .next (s.withFbu (s.fbu.recordError .busy)) :=
  if_neg h

/-- Settles O7: the latch writes exactly the elements of R110, and the rejection records only the first cause. -/
theorem measureLatchesAndIsDone : Obligations.MeasureLatchesAndIsDone := by
  refine fun s => ⟨exec_measure_of_idle, fun hbusy => ?_⟩
  rw [exec_measure_of_busy hbusy, Fbu.recordError_eq]
  rfl

end Sys2Proof.Machine
end

section
/-! RASTER, accepted and rejected (41_raster.md R130, 42_control.md R173). -/

namespace Sys2Proof.Machine

theorem exec_raster_of_idle {s : State} (h : s.fbu.phase = .idle) :
    exec .raster s = .next (s.withFbu s.fbu.startRaster) :=
  if_pos h

theorem exec_raster_of_busy {s : State} (h : s.fbu.phase ≠ .idle) :
    exec .raster s = .next (s.withFbu (s.fbu.recordError .busy)) :=
  if_neg h

/-- Settles O8: by the two ways of starting a job, and the rejection records only the first cause. -/
theorem rasterLatchesAndStarts : Obligations.RasterLatchesAndStarts := by
  refine fun s => ⟨fun hidle hw hh => ?_, fun hidle hempty => ?_, fun hbusy => ?_⟩
  · rw [exec_raster_of_idle hidle, Fbu.startRaster_of_not_isEmpty (isEmpty_eq_false_of_pos hw hh)]
    rfl
  · rw [exec_raster_of_idle hidle, Fbu.startRaster_of_isEmpty ((isEmpty_iff_toInt _ _).2 hempty)]
    rfl
  · rw [exec_raster_of_busy hbusy, Fbu.recordError_eq]
    rfl

end Sys2Proof.Machine
end

section
/-! The FBU's turn, one equation for each thing it can do: wait, load a payload byte, load a slot, deliver a beat
(41_raster.md R138, R139, 60_exceptions.md R209). -/

namespace Sys2Proof.Machine

section
variable {s : State} {rest : List Event} (he : s.events = .fbu :: rest)
include he

theorem step_of_fbu : step s = .next (fbuTurn (s.withEvents rest)) := step_of_events he

theorem step_of_fbu_of_not_enabled (h : s.fbu.phase = .idle ∨ waitsForByte s ∨ waitsForSink s) :
    step s = .next (s.withEvents rest) := by
  rw [step_of_fbu he, fbuTurn, (fbuStep_eq_none_iff (s.withEvents rest)).2 h]

theorem step_of_fbu_of_fbuStep {t : State} (h : fbuStep (s.withEvents rest) = some t) : step s = .next t := by
  rw [step_of_fbu he, fbuTurn, h]

theorem step_of_fbu_of_payload {p : Byte} {q : List Byte} (hp : s.fbu.phase = .fetch)
    (hb : byteIndex s.fbu < payloadSize s.fbu.lw s.fbu.lh) (hin : s.inStream = p :: q) :
    step s = .next { s with events := rest, inStream := q, fbu := s.fbu.loadPayload p } :=
  step_of_fbu_of_fbuStep he (by simp [fbuStep, hp, fetchStep, hb, State.inPop, hin, State.withFbu, State.withEvents])

theorem step_of_fbu_of_slot (hp : s.fbu.phase = .fetch) (hb : payloadSize s.fbu.lw s.fbu.lh ≤ byteIndex s.fbu) :
    step s = .next { s with events := rest, fbu := s.fbu.loadSlot } :=
  step_of_fbu_of_fbuStep he (by simp [fbuStep, hp, fetchStep, Nat.not_lt.2 hb, State.withFbu, State.withEvents])

theorem step_of_fbu_of_beat (hp : s.fbu.phase = .emit) (hr : s.sinkReady = true) :
    step s = .next { s with
      events := rest, outStream := s.outStream ++ [emitBeat s.fbu], fbu := s.fbu.afterBeat } :=
  step_of_fbu_of_fbuStep he (by simp [fbuStep, hp, emitStep, State.outPush, hr, State.withFbu, State.withEvents])

end

/-- Settles O24: FETCH below SIZE loads the byte at the front of IN or waits for one, and from SIZE on it loads a
slot. -/
theorem fetchLoadsOneGridByte : Obligations.FetchLoadsOneGridByte :=
  fun _ _ he hp =>
    ⟨fun hb => ⟨fun _ _ hin => step_of_fbu_of_payload he hp hb hin,
        fun hin => step_of_fbu_of_not_enabled he (.inr (.inl ⟨hp, hb, hin⟩))⟩,
      fun hb => step_of_fbu_of_slot he hp hb⟩

theorem fbuTurn_errc (s : State) : (fbuTurn s).fbu.errc = s.fbu.errc := by
  obtain hstep | ⟨-, hsame⟩ := fbuTurn_cases s
  · obtain ⟨p, q, -, -, -, ht⟩ | ⟨-, -, ht⟩ | ⟨-, -, ht⟩ := fbuStep_cases hstep <;> simp [ht]
  · rw [hsame]

/-- An enabled step always moves the FBU: FETCH changes the phase, and EMIT counts a beat. -/
theorem fbu_ne_of_fbuStep {s t : State} (h : fbuStep s = some t) : t.fbu ≠ s.fbu := by
  intro hsame
  obtain ⟨p, q, hp, -, -, rfl⟩ | ⟨hp, -, rfl⟩ | ⟨-, -, rfl⟩ := fbuStep_cases h
  · have hphase := congrArg Fbu.phase hsame
    simp [hp] at hphase
  · have hphase := congrArg Fbu.phase hsame
    simp [hp] at hphase
  · have hcount := congrArg Fbu.outcount hsame
    simp at hcount

theorem fbuTurn_fbu_eq_iff (s : State) :
    (fbuTurn s).fbu = s.fbu ↔ s.fbu.phase = .idle ∨ waitsForByte s ∨ waitsForSink s := by
  rw [← fbuStep_eq_none_iff]
  obtain hstep | ⟨hnone, hsame⟩ := fbuTurn_cases s
  · simp [hstep, fbu_ne_of_fbuStep hstep]
  · simp [hnone, hsame]

/-- Settles O29: the turn keeps ERRC, and an enabled step always moves the FBU. -/
theorem jobStepsOnlyWaitOrProgress : Obligations.JobStepsOnlyWaitOrProgress :=
  fun s rest he => ⟨_, step_of_fbu he, fbuTurn_errc (s.withEvents rest), fbuTurn_fbu_eq_iff (s.withEvents rest)⟩

end Sys2Proof.Machine
end

section
/-! EMIT: its beat from the conditions on its fields, and the two ways of advancing (41_raster.md R139). -/

namespace Sys2Proof.Machine

/-- Fields that say of the pixel what R85, R133, R134 and R136 say are those of the delivered beat. -/
theorem emitBeat_eq_packBeat {f : Fbu} {beat : BeatFields} (hpix : beat.pix = f.cb.getLsbD (7 - f.j.toNat))
    (hcls : beat.cls = pixelClass f.lw f.lh f.y.toNat (byteIndex f))
    (heor : beat.eor = true ↔ (columnOf f : Int) = rasterWidth f.lw f.lh - 1)
    (heog : beat.eog = true ↔
      (columnOf f : Int) = rasterWidth f.lw f.lh - 1 ∧ (f.y.toNat : Int) = rasterHeight f.lw f.lh - 1)
    (hpad : beat.colpad = true ↔ f.lw.toInt ≤ (columnOf f : Int)) :
    emitBeat f = packBeat beat := by
  rw [← eorFlag_iff, ← Bool.eq_iff_iff] at heor
  rw [← eogFlag_iff, ← Bool.eq_iff_iff] at heog
  rw [← colpadFlag_iff, ← Bool.eq_iff_iff] at hpad
  rw [emitBeat, pixelBit, ← hpix, ← hcls, ← heor, ← heog, ← hpad]

theorem Fbu.afterBeat_of_lt_seven {f : Fbu} (h : f.j.toNat < 7) : f.afterBeat = f.countBeat.nextBit := if_pos h

theorem Fbu.afterBeat_of_eq_seven {f : Fbu} (h : f.j.toNat = 7) : f.afterBeat = f.countBeat.nextByte.endByte :=
  if_neg (by omega)

theorem Fbu.endByte_of_eq {f : Fbu} (h : f.y.toNat = rasterHeight f.lw f.lh) : f.endByte = f.complete := if_pos h

/-- The next grid byte is the next one of the row, or the first one of the next row. -/
theorem Fbu.nextByte_eq_of_position {f : Fbu} {y : BitVec 16} {xb : BitVec 12}
    (hlt : f.xb.toNat + 1 < rowBytes f.lw f.lh → xb = f.xb + 1 ∧ y = f.y)
    (hle : rowBytes f.lw f.lh ≤ f.xb.toNat + 1 → xb = 0 ∧ y = f.y + 1) :
    f.nextByte = { f with j := 0, xb := xb, y := y } := by
  obtain h | h := Nat.lt_or_ge (f.xb.toNat + 1) (rowBytes f.lw f.lh)
  · obtain ⟨rfl, rfl⟩ := hlt h
    exact Fbu.nextByte_of_lt h
  · obtain ⟨rfl, rfl⟩ := hle h
    exact Fbu.nextByte_of_le h

/-- Settles O25: the conditions on the fields fix the beat, and the FBU advances by a bit or by a byte. -/
theorem emitDeliversOneBeatAndAdvances : Obligations.EmitDeliversOneBeatAndAdvances := by
  rintro s rest x b beat he hp rfl rfl hpix hcls heor heog hpad
  have hbeat : emitBeat s.fbu = packBeat beat := emitBeat_eq_packBeat hpix hcls heor heog hpad
  rw [← hbeat]
  refine ⟨fun hr => step_of_fbu_of_not_enabled he (.inr (.inr ⟨hp, hr⟩)), fun hr hj => ?_,
    fun hr hj y' xb' hlt hle => ?_⟩
  · rw [step_of_fbu_of_beat he hp hr, Fbu.afterBeat_of_lt_seven hj]
    rfl
  · rw [step_of_fbu_of_beat he hp hr, Fbu.afterBeat_of_eq_seven hj,
      Fbu.nextByte_eq_of_position (f := s.fbu.countBeat) hlt hle]
    rfl

end Sys2Proof.Machine
end

section
/-! A job in EMIT: where its next pixel lies, and which beat is its last (41_raster.md R137, R140, 10_state.md R33). -/

namespace Sys2Proof.Machine

theorem byteIndex_succ_of_last {f : Fbu} (hxb : f.xb.toNat + 1 = rowBytes f.lw f.lh)
    (hy : f.y.toNat + 1 = rasterHeight f.lw f.lh) : byteIndex f + 1 = gridBytes f.lw f.lh := by
  rw [byteIndex, gridBytes, ← hy, Nat.succ_mul, ← hxb, Nat.add_assoc]

section
variable {f : Fbu} (h : JobInv f) (hp : f.phase ≠ .idle)
include h hp

theorem JobInv.columnOf_lt : columnOf f < rasterWidth f.lw f.lh := by
  have hxb := h.byte_in_row hp
  rw [rasterWidth_eq, columnOf]
  omega

/-- The beats delivered so far are those of the full rows above and of the columns to the left. -/
theorem JobInv.outcount_eq : f.outcount.toNat = rasterWidth f.lw f.lh * f.y.toNat + columnOf f := by
  rw [h.beats_counted hp, byteIndex, rasterWidth_eq, columnOf]
  ring

/-- The last pixel of the grid is the last bit of the last byte of the last row. -/
theorem JobInv.eogFlag_iff_last : eogFlag f.lw f.lh (columnOf f) f.y.toNat = true ↔
    f.j.toNat = 7 ∧ f.xb.toNat + 1 = rowBytes f.lw f.lh ∧ f.y.toNat + 1 = rasterHeight f.lw f.lh := by
  have hxb := h.byte_in_row hp
  rw [eogFlag_iff, rasterWidth_eq, columnOf]
  omega

/-- The next byte leaves the grid exactly from the last byte of the last row. -/
theorem JobInv.nextByte_y_eq_iff : f.countBeat.nextByte.y.toNat = rasterHeight f.lw f.lh ↔
    f.xb.toNat + 1 = rowBytes f.lw f.lh ∧ f.y.toNat + 1 = rasterHeight f.lw f.lh := by
  have hy := h.row_in_grid hp
  have hxb := h.byte_in_row hp
  have hH := rasterHeight_le f.lw f.lh
  obtain hlt | hle := Nat.lt_or_ge (f.xb.toNat + 1) (rowBytes f.lw f.lh)
  · rw [Fbu.nextByte_of_lt (f := f.countBeat) hlt]
    simp only [Fbu.countBeat_y]
    omega
  · rw [Fbu.nextByte_of_le (f := f.countBeat) hle]
    simp only [Fbu.countBeat_y]
    bv_omega

end

/-- Settles O27: the row and the column are quotient and remainder of the number of beats delivered. -/
theorem beatsAreRowMajor : Obligations.BeatsAreRowMajor := by
  intro f h hp
  have hbusy : f.phase ≠ .idle := by simp [hp]
  have hcol := h.columnOf_lt hbusy
  rw [h.outcount_eq hbusy]
  refine ⟨?_, ?_, ?_⟩
  · rw [Nat.mul_add_mod, Nat.mod_eq_of_lt hcol]
  · rw [Nat.mul_add_div (Nat.zero_lt_of_lt hcol), Nat.div_eq_of_lt hcol, Nat.add_zero]
  · rw [byteIndex, gridIndex, columnOf]
    omega

section
variable {f : Fbu} (h : JobInv f) (hp : f.phase = .emit)
include h hp

theorem JobInv.done_eq_false_of_emit : f.done = false := by
  cases hd : f.done with
  | false => rfl
  | true => simp [h.done_idle hd] at hp

/-- At the last byte of the grid the whole payload has been popped. -/
theorem JobInv.incount_of_last_byte (hb : byteIndex f + 1 = gridBytes f.lw f.lh) :
    f.incount.toNat = payloadSize f.lw f.lh := by
  rw [h.emit_counted hp, hb, Nat.min_eq_right (payloadSize_le_gridBytes f.lw f.lh)]

/-- The beat of the last bit of the last grid byte is the last beat of the job. -/
theorem JobInv.outcount_succ_of_last_byte (hb : byteIndex f + 1 = gridBytes f.lw f.lh) (hj : f.j.toNat = 7) :
    (f.outcount + 1).toNat = jobLength f.lw f.lh := by
  have hcount := h.beats_counted (by simp [hp])
  have hle := gridBytes_le f.lw f.lh
  rw [jobLength_eq]
  bv_omega

/-- The advance after the beat with EOG = 1 completes the job, and leaves what R33's last sentence says. -/
theorem JobInv.afterBeat_of_eog (heog : eogFlag f.lw f.lh (columnOf f) f.y.toNat = true) :
    f.afterBeat.phase = .idle ∧ f.afterBeat.done = true ∧ f.afterBeat.y.toNat = rasterHeight f.lw f.lh ∧
      f.afterBeat.xb = 0 ∧ f.afterBeat.j = 0 ∧ f.afterBeat.incount.toNat = payloadSize f.lw f.lh ∧
      f.afterBeat.outcount.toNat = jobLength f.lw f.lh := by
  have hbusy : f.phase ≠ .idle := by simp [hp]
  obtain ⟨hj, hxb, hy⟩ := (h.eogFlag_iff_last hbusy).1 heog
  have hb := byteIndex_succ_of_last hxb hy
  have hend := (h.nextByte_y_eq_iff hbusy).2 ⟨hxb, hy⟩
  have hnext : f.countBeat.nextByte.xb = 0 := by rw [Fbu.nextByte_of_le (f := f.countBeat) hxb.ge]
  have hafter : f.afterBeat = f.countBeat.nextByte.complete := by
    rw [Fbu.afterBeat_of_eq_seven hj, Fbu.endByte_of_eq (by simpa using hend)]
  rw [hafter]
  exact ⟨rfl, rfl, hend, hnext, by simp, by simpa using h.incount_of_last_byte hp hb,
    by simpa using h.outcount_succ_of_last_byte hp hb hj⟩

/-- The advance after any other beat goes on with the job. -/
theorem JobInv.afterBeat_of_not_eog (heog : eogFlag f.lw f.lh (columnOf f) f.y.toNat = false) :
    f.afterBeat.phase ≠ .idle ∧ f.afterBeat.done = false := by
  have hbusy : f.phase ≠ .idle := by simp [hp]
  have hdone := h.done_eq_false_of_emit hp
  obtain ⟨-, hafter⟩ | ⟨-, -, hafter⟩ | ⟨hj, hend, -⟩ := f.afterBeat_cases
  · simp [hafter, hp, hdone]
  · simp [hafter, hdone]
  · have hlast := (h.eogFlag_iff_last hbusy).2 ⟨hj, (h.nextByte_y_eq_iff hbusy).1 hend⟩
    simp [hlast] at heog

end

/-- Settles O28: bit 4 of the beat is EOG, and the advance completes the job exactly after that beat. -/
theorem jobCompletesWithItsLastBeat : Obligations.JobCompletesWithItsLastBeat := by
  intro s t rest h he hp hr hst
  have ht : t.fbu = s.fbu.afterBeat := by
    rw [step_of_fbu_of_beat he hp hr] at hst
    exact (congrArg State.fbu (Host.Outcome.next.inj hst)).symm
  obtain ⟨-, -, -, heog, -⟩ := emitBeat_fields s.fbu
  rw [ht, heog]
  exact ⟨h.afterBeat_of_eog hp, h.afterBeat_of_not_eog hp⟩

end Sys2Proof.Machine
end

section
/-! A write to CMD: the decoder's answer decides between the rejection of R172 and the command, and a command that
needs an idle FBU rejects itself by R173 (42_control.md R170 to R174). -/

namespace Sys2Proof.Machine

/-- Settles O6: the arm of NOP is the state itself. -/
theorem nopChangesNothing : Obligations.NopChangesNothing := fun _ => rfl

/-- Settles O9: the arm of ABORT is these three updates, and no case of it looks at the phase. -/
theorem abortEndsAnyJob : Obligations.AbortEndsAnyJob := fun _ => rfl

theorem step_of_command_write {s : State} {rest : List Event} {w : Word}
    (he : s.events = .host { off := 0x04, width := 32, kind := .write w } :: rest) :
    step s = command w { s with events := rest, response := .written } :=
  step_of_write (by decide) (by decide) he

theorem command_encode (i : Instr) (s : State) : command (encode i) s = exec i s := by
  rw [command, decode_encode_eq]

theorem command_of_error {w : Word} {r : DecodeReject} (h : decode w = .error r) (s : State) :
    command w s = .next (s.withFbu (s.fbu.recordError .rsvd)) := by
  rw [command, h]
  rfl

/-- A rejected word has `RSVD ≠ 0` or an `OP` above 3 (30_encoding.md R82). -/
theorem fields_of_decode_error {w : Word} {r : DecodeReject} (h : decode w = .error r) :
    w.extractLsb' 4 28 ≠ 0 ∨ 4 ≤ (w.extractLsb' 0 4).toNat := by
  have hfields : ¬ (rsvdField w = 0 ∧ (opField w).toNat ≤ 3) := by
    rw [← exists_decode_iff, h]
    exact nofun
  rwa [not_and_or, Nat.not_le] at hfields

/-- MEASURE and RASTER test the phase first: in any but IDLE they only record the cause BUSY (42_control.md R173). -/
theorem exec_eq_ite_busy {i : Instr} (hi : i = .measure ∨ i = .raster) (s : State) :
    exec i s =
      if s.fbu.phase ≠ .idle then
        .next { s with fbu := { s.fbu with errc := if s.fbu.errc = .none then .busy else s.fbu.errc } }
      else exec i s := by
  split
  · next hbusy =>
    obtain rfl | rfl := hi
    · exact (measureLatchesAndIsDone s).2 hbusy
    · obtain ⟨-, -, hreject⟩ := rasterLatchesAndStarts s
      exact hreject hbusy
  · rfl

/-- Settles O5: a word is either rejected, and then its fields are those of a reserved word, or it is the word of one
of the four commands, of which MEASURE and RASTER alone look at the phase. -/
theorem commandDispatchOrder : Obligations.CommandDispatchOrder := by
  intro s rest w he
  rw [step_of_command_write he]
  cases hd : decode w with
  | error r =>
    rw [command_of_error hd, if_pos (fields_of_decode_error hd), Fbu.recordError_eq]
    rfl
  | ok i =>
    obtain rfl := eq_encode_of_decode hd
    rw [command_encode]
    cases i with
    | nop => rfl
    | abort => rfl
    | measure => exact exec_eq_ite_busy (.inl rfl) { s with events := rest, response := .written }
    | raster => exact exec_eq_ite_busy (.inr rfl) { s with events := rest, response := .written }

end Sys2Proof.Machine
end

section
/-! The two waits of the FBU: an event that is neither a reset nor an ABORT changes nothing of the FBU that a wait
depends on, so only the stream that it waits for can lift it (60_exceptions.md R209). -/

namespace Sys2Proof.Machine

@[simp] theorem waitsForByte_takeEvent (s : State) : waitsForByte s.takeEvent ↔ waitsForByte s := by
  simp [waitsForByte]

@[simp] theorem waitsForSink_takeEvent (s : State) : waitsForSink s.takeEvent ↔ waitsForSink s := by
  simp [waitsForSink]

theorem fbuEnabled_iff (s : State) :
    fbuEnabled s ↔ s.fbu.phase ≠ .idle ∧ ¬ waitsForByte s ∧ ¬ waitsForSink s := by
  rw [fbuEnabled, Option.isSome_iff_ne_none, Ne, fbuStep_eq_none_iff, not_or, not_or]

/-- While the FBU is busy, no event but its own turn, a reset and ABORT changes the phase, the latched geometry or the
grid byte that it is at. -/
theorem FbuChange.frame_of_busy {f g : Fbu} {e : Event} (h : FbuChange f e g) (hp : f.phase ≠ .idle)
    (hf : e ≠ .fbu) (hr : e ≠ .reset) (ha : ¬ issues .abort e) :
    g.phase = f.phase ∧ g.lw = f.lw ∧ g.lh = f.lh ∧ byteIndex g = byteIndex f := by
  cases h with
  | reset => exact absurd rfl hr
  | abort hi => exact absurd hi ha
  | measure hi hidle | raster hi hidle => exact absurd hidle hp
  | payload p hfetch => exact absurd rfl hf
  | slot hfetch => exact absurd rfl hf
  | beat hemit => exact absurd rfl hf
  | same | geom | reserved | busy => simp [byteIndex]

/-- No event but the FBU's turn and an offer touches IN. -/
theorem eventState_inStream_of_ne {e : Event} (hf : e ≠ .fbu) (ho : ∀ b, e ≠ .offer b) (s : State) :
    (eventState e s).inStream = s.inStream := by
  cases e with
  | fbu => exact absurd rfl hf
  | offer b => exact absurd rfl (ho b)
  | bus a =>
    simp only [eventState]
    split <;> rfl
  | _ => rfl

/-- A sink that is not ready stays so but for the event that makes it ready. -/
theorem eventState_sinkReady_of_ne {e : Event} (hf : e ≠ .fbu) (hs : e ≠ .sink true) {s : State}
    (h : s.sinkReady = false) : (eventState e s).sinkReady = false := by
  cases e with
  | fbu => exact absurd rfl hf
  | sink r =>
    cases r with
    | false => rfl
    | true => exact absurd rfl hs
  | bus a =>
    simp only [eventState]
    split <;> exact h
  | _ => exact h

theorem eventState_fbu_of_waits {s : State} (h : waitsForByte s ∨ waitsForSink s) : eventState .fbu s = s := by
  rw [eventState, fbuTurn, (fbuStep_eq_none_iff s).2 (.inr h)]

theorem waitsForByte_eventState {e : Event} {s : State} (h : waitsForByte s) (ho : ∀ b, e ≠ .offer b)
    (hr : e ≠ .reset) (ha : ¬ issues .abort e) : waitsForByte (eventState e s) := by
  by_cases hf : e = .fbu
  · rwa [hf, eventState_fbu_of_waits (.inl h)]
  · obtain ⟨hp, hb, hin⟩ := h
    obtain ⟨hphase, hlw, hlh, hbyte⟩ := (fbuChange_eventState e s).frame_of_busy (by simp [hp]) hf hr ha
    exact ⟨hphase.trans hp, by rwa [hbyte, hlw, hlh], (eventState_inStream_of_ne hf ho s).trans hin⟩

theorem waitsForSink_eventState {e : Event} {s : State} (h : waitsForSink s) (hs : e ≠ .sink true)
    (hr : e ≠ .reset) (ha : ¬ issues .abort e) : waitsForSink (eventState e s) := by
  by_cases hf : e = .fbu
  · rwa [hf, eventState_fbu_of_waits (.inr h)]
  · obtain ⟨hp, hready⟩ := h
    obtain ⟨hphase, -⟩ := (fbuChange_eventState e s).frame_of_busy (by simp [hp]) hf hr ha
    exact ⟨hphase.trans hp, eventState_sinkReady_of_ne hf hs hready⟩

theorem fbuEnabled_offer_of_waitsForByte {s : State} (h : waitsForByte s) (b : Byte) : fbuEnabled (s.offer b) := by
  obtain ⟨hp, -, -⟩ := h
  simp [fbuEnabled_iff, waitsForByte, waitsForSink, hp]

theorem fbuEnabled_setSink_of_waitsForSink {s : State} (h : waitsForSink s) : fbuEnabled (s.setSink true) := by
  obtain ⟨hp, -⟩ := h
  simp [fbuEnabled_iff, waitsForByte, waitsForSink, hp]

theorem eventState_fbu_of_abort {e : Event} (h : issues .abort e) (s : State) :
    (eventState e s).fbu = ((s.fbu.setPhase .idle).setDone false).clearError := by
  have hc : commandWord e = some (encode .abort) := h
  have hg : geomWritten e = none := by
    refine Option.eq_none_iff_forall_ne_some.2 fun v hv => ?_
    simp [commandWord_of_geomWritten hv] at hc
  have hf : e ≠ .fbu := by rintro rfl; cases hc
  have hr : e ≠ .reset := by rintro rfl; cases hc
  rw [eventState_fbu_of_access hf hr, hg, hc]
  rfl

theorem eventState_phase_of_reset_or_abort {e : Event} (h : e = .reset ∨ issues .abort e) (s : State) :
    (eventState e s).fbu.phase = .idle := by
  obtain rfl | ha := h
  · rfl
  · rw [eventState_fbu_of_abort ha]
    rfl

/-- Settles O33: a wait depends on what the FBU keeps while it is busy and on one stream, and a reset or an ABORT goes
to IDLE from every phase. -/
theorem waitsAreLiftedOnlyByOtherAgents : Obligations.WaitsAreLiftedOnlyByOtherAgents := by
  intro s t hst
  obtain rfl := (step_next_iff s t).1 hst
  unfold stepState
  rw [← waitsForByte_takeEvent s, ← waitsForSink_takeEvent s]
  refine ⟨fun hw => ⟨waitsForByte_eventState hw, fun b he => ?_⟩,
    fun hw => ⟨waitsForSink_eventState hw, fun he => ?_⟩, fun _ he => eventState_phase_of_reset_or_abort he _⟩
  · rw [he]
    exact fbuEnabled_offer_of_waitsForByte hw b
  · rw [he]
    exact fbuEnabled_setSink_of_waitsForSink hw

end Sys2Proof.Machine
end

section
/-! The reset event as one step (70_reset_and_hazards.md R230). -/

namespace Sys2Proof.Machine

/-- The reset event does not depend on what the FBU was doing (70_reset_and_hazards.md R230). -/
theorem State.resetEvent_eq (s : State) : s.resetEvent = s.withFbu Fbu.reset := rfl

theorem step_of_reset {s : State} {rest : List Event} (he : s.events = .reset :: rest) :
    step s = .next ((s.withEvents rest).withFbu Fbu.reset) := by
  rw [step_of_events he, handleEvent, State.resetEvent_eq]

/-- Settles O35: a reset step takes its event off the order and replaces the FBU; the two updates touch no stream, no
sink and no answer. -/
theorem resetEventResetsTheFbuOnly : Obligations.ResetEventResetsTheFbuOnly :=
  fun _ _ he => step_of_reset he

end Sys2Proof.Machine
end

section
/-! The job invariant of a running FBU, from what R33 says of its phase: the remaining ranges follow. -/

namespace Sys2Proof.Machine

/-- The grid byte that a running job is at lies in the grid. -/
theorem byteIndex_lt_gridBytes {f : Fbu} (hy : f.y.toNat < rasterHeight f.lw f.lh)
    (hxb : f.xb.toNat < rowBytes f.lw f.lh) : byteIndex f < gridBytes f.lw f.lh :=
  calc byteIndex f < f.y.toNat * rowBytes f.lw f.lh + rowBytes f.lw f.lh := Nat.add_lt_add_left hxb _
    _ = (f.y.toNat + 1) * rowBytes f.lw f.lh := (Nat.succ_mul ..).symm
    _ ≤ gridBytes f.lw f.lh := Nat.mul_le_mul_right _ hy

theorem JobInv.byteIndex_lt {f : Fbu} (h : JobInv f) (hp : f.phase ≠ .idle) : byteIndex f < gridBytes f.lw f.lh :=
  byteIndex_lt_gridBytes (h.row_in_grid hp) (h.byte_in_row hp)

theorem JobInv.done_eq_false {f : Fbu} (h : JobInv f) (hp : f.phase ≠ .idle) : f.done = false :=
  Bool.eq_false_iff.2 fun hd => hp (h.done_idle hd)

section
variable {f : Fbu} (hd : f.done = false) (hy : f.y.toNat < rasterHeight f.lw f.lh)
  (hxb : f.xb.toNat < rowBytes f.lw f.lh) (hout : f.outcount.toNat = 8 * byteIndex f + f.j.toNat)
include hd hy hxb hout

theorem jobInv_of_busy (hin : f.incount.toNat ≤ payloadSize f.lw f.lh)
    (hfetch : f.phase = .fetch → f.j = 0 ∧ f.incount.toNat = min (byteIndex f) (payloadSize f.lw f.lh))
    (hemit : f.phase = .emit → f.incount.toNat = min (byteIndex f + 1) (payloadSize f.lw f.lh) ∧
      (payloadSize f.lw f.lh ≤ byteIndex f → f.cb = 0)) : JobInv f where
  row_in_grid _ := hy
  byte_in_row _ := hxb
  beats_counted _ := hout
  fetch_first_bit hp := (hfetch hp).1
  fetch_counted hp := (hfetch hp).2
  emit_counted hp := (hemit hp).1
  slot_clear hp := (hemit hp).2
  done_idle h := by simp [hd] at h
  incount_le := hin
  outcount_le := by
    have := byteIndex_lt_gridBytes hy hxb
    rw [jobLength_eq]
    omega
  y_le := hy.le
  xb_range := .inl hxb
  done_position h := by simp [hd] at h

theorem jobInv_of_fetch (hp : f.phase = .fetch) (hj : f.j = 0)
    (hin : f.incount.toNat = min (byteIndex f) (payloadSize f.lw f.lh)) : JobInv f :=
  jobInv_of_busy hd hy hxb hout (hin ▸ Nat.min_le_right _ _) (fun _ => ⟨hj, hin⟩) fun he => by simp [hp] at he

theorem jobInv_of_emit (hp : f.phase = .emit)
    (hin : f.incount.toNat = min (byteIndex f + 1) (payloadSize f.lw f.lh))
    (hcb : payloadSize f.lw f.lh ≤ byteIndex f → f.cb = 0) : JobInv f :=
  jobInv_of_busy hd hy hxb hout (hin ▸ Nat.min_le_right _ _) (fun hf => by simp [hp] at hf) fun _ => ⟨hin, hcb⟩

end

/-- GEOM and ERRC take no part in the invariant. -/
theorem JobInv.with_geom_errc {f : Fbu} (h : JobInv f) (v : Word) (c : ErrCause) :
    JobInv { f with geom := v, errc := c } := { h with }

theorem JobInv.recordError {f : Fbu} (h : JobInv f) (c : ErrCause) : JobInv (f.recordError c) :=
  Fbu.recordError_eq c f ▸ h.with_geom_errc f.geom _

/-- In IDLE only the bounds and the state after completion are left of the invariant. -/
theorem jobInv_of_idle {f : Fbu} (hp : f.phase = .idle) (hin : f.incount.toNat ≤ payloadSize f.lw f.lh)
    (hout : f.outcount.toNat ≤ jobLength f.lw f.lh) (hy : f.y.toNat ≤ rasterHeight f.lw f.lh)
    (hxb : f.xb.toNat < rowBytes f.lw f.lh ∨ f.xb = 0)
    (hdone : f.done = true → f.xb = 0 ∧ f.j = 0 ∧ ((f.y = 0 ∧ f.incount = 0 ∧ f.outcount = 0) ∨
      (f.y.toNat = rasterHeight f.lw f.lh ∧ f.incount.toNat = payloadSize f.lw f.lh ∧
        f.outcount.toNat = jobLength f.lw f.lh))) : JobInv f where
  row_in_grid h := absurd hp h
  byte_in_row h := absurd hp h
  beats_counted h := absurd hp h
  fetch_first_bit h := by simp [hp] at h
  fetch_counted h := by simp [hp] at h
  emit_counted h := by simp [hp] at h
  slot_clear h := by simp [hp] at h
  done_idle _ := hp
  incount_le := hin
  outcount_le := hout
  y_le := hy
  xb_range := hxb
  done_position := hdone

/-- An IDLE FBU at the start position: after reset, MEASURE or an empty RASTER. -/
theorem jobInv_of_idle_start {f : Fbu} (hp : f.phase = .idle) (hin : f.incount = 0) (hout : f.outcount = 0)
    (hy : f.y = 0) (hxb : f.xb = 0) (hj : f.j = 0) : JobInv f :=
  jobInv_of_idle hp (by simp [hin]) (by simp [hout]) (by simp [hy]) (.inr hxb)
    fun _ => ⟨hxb, hj, .inl ⟨hy, hin, hout⟩⟩

/-- ABORT keeps every bound of the counters and the position, and clears DONE. -/
theorem JobInv.abort {f : Fbu} (h : JobInv f) : JobInv ((f.setPhase .idle).setDone false).clearError :=
  jobInv_of_idle rfl h.incount_le h.outcount_le h.y_le h.xb_range nofun

/-- Settles O36: reset leaves an IDLE FBU at the start position. -/
theorem jobInvariantHoldsAtReset : Obligations.JobInvariantHoldsAtReset :=
  jobInv_of_idle_start rfl rfl rfl rfl rfl rfl

end Sys2Proof.Machine
end

section
/-! Every step keeps the job invariant: a start of a job, a FETCH, the advance after a beat, and the other events
(10_state.md section 4). -/

namespace Sys2Proof.Machine

theorem jobInv_startRaster {f : Fbu} (hp : f.phase = .idle) : JobInv f.startRaster := by
  cases he : isEmpty (geomWidth f.geom) (geomHeight f.geom)
  · rw [Fbu.startRaster_of_not_isEmpty he]
    exact jobInv_of_fetch rfl (rasterHeight_pos he) (rowBytes_pos he) (by simp [byteIndex]) rfl rfl
      (by simp [byteIndex])
  · rw [Fbu.startRaster_of_isEmpty he]
    exact jobInv_of_idle_start hp rfl rfl rfl rfl rfl

section
variable {f : Fbu} (h : JobInv f)
include h

theorem JobInv.loadPayload (hp : f.phase = .fetch) (hb : byteIndex f < payloadSize f.lw f.lh) (p : Byte) :
    JobInv (f.loadPayload p) := by
  have hbusy : f.phase ≠ .idle := by simp [hp]
  have hin := h.fetch_counted hp
  have hsize := payloadSize_le f.lw f.lh
  refine jobInv_of_emit (h.done_eq_false hbusy) (h.row_in_grid hbusy) (h.byte_in_row hbusy) (h.beats_counted hbusy) rfl
    ?_ fun hle => absurd hb (Nat.not_lt.2 hle)
  show (f.incount + 1).toNat = min (byteIndex f + 1) (payloadSize f.lw f.lh)
  bv_omega

theorem JobInv.loadSlot (hp : f.phase = .fetch) (hb : payloadSize f.lw f.lh ≤ byteIndex f) : JobInv f.loadSlot := by
  have hbusy : f.phase ≠ .idle := by simp [hp]
  have hin := h.fetch_counted hp
  refine jobInv_of_emit (h.done_eq_false hbusy) (h.row_in_grid hbusy) (h.byte_in_row hbusy) (h.beats_counted hbusy) rfl
    ?_ fun _ => rfl
  show f.incount.toNat = min (byteIndex f + 1) (payloadSize f.lw f.lh)
  omega

theorem JobInv.outcount_succ : (f.outcount + 1).toNat = f.outcount.toNat + 1 := by
  have := h.outcount_le
  have := jobLength_le f.lw f.lh
  bv_omega

/-- The next grid byte, one further in the grid: in the row or at the start of the next one. -/
theorem JobInv.nextByte_position (hp : f.phase ≠ .idle) :
    f.countBeat.nextByte.y.toNat ≤ rasterHeight f.lw f.lh ∧ f.countBeat.nextByte.xb.toNat < rowBytes f.lw f.lh ∧
      byteIndex f.countBeat.nextByte = byteIndex f + 1 := by
  have hy := h.row_in_grid hp
  have hxb := h.byte_in_row hp
  have hH := rasterHeight_le f.lw f.lh
  have hRB := rowBytes_le f.lw f.lh
  obtain hlt | hle := Nat.lt_or_ge (f.xb.toNat + 1) (rowBytes f.lw f.lh)
  · have hxb' : (f.xb + 1).toNat = f.xb.toNat + 1 := by bv_omega
    rw [Fbu.nextByte_of_lt (f := f.countBeat) hlt]
    simp only [byteIndex, Fbu.countBeat_y, Fbu.countBeat_xb, Fbu.countBeat_lw, Fbu.countBeat_lh, hxb']
    omega
  · have hy' : (f.y + 1).toNat = f.y.toNat + 1 := by bv_omega
    rw [Fbu.nextByte_of_le (f := f.countBeat) hle]
    simp only [byteIndex, Fbu.countBeat_y, Fbu.countBeat_lw, Fbu.countBeat_lh, hy', Nat.succ_mul]
    refine ⟨hy, ?_, ?_⟩ <;> simp <;> omega

/-- The advance after the last beat leaves the state of R33's last sentence. -/
theorem JobInv.afterBeat_of_last (hp : f.phase = .emit)
    (heog : eogFlag f.lw f.lh (columnOf f) f.y.toNat = true) : JobInv f.afterBeat := by
  obtain ⟨hidle, -, hy, hxb, hj, hin, hout⟩ := h.afterBeat_of_eog hp heog
  rw [← f.afterBeat_lw, ← f.afterBeat_lh] at hy hin hout
  exact jobInv_of_idle hidle hin.le hout.le hy.le (.inr hxb) fun _ => ⟨hxb, hj, .inr ⟨hy, hin, hout⟩⟩

/-- EMIT's advance keeps the invariant: to the next bit, to the FETCH of the next byte, or to completion. -/
theorem JobInv.afterBeat (hp : f.phase = .emit) : JobInv f.afterBeat := by
  have hbusy : f.phase ≠ .idle := by simp [hp]
  have hdone := h.done_eq_false hbusy
  have hbeats := h.beats_counted hbusy
  have hout := h.outcount_succ
  obtain ⟨hj, hafter⟩ | ⟨hj, hmore, hafter⟩ | ⟨hj, hend, hafter⟩ := f.afterBeat_cases
  · rw [hafter]
    refine jobInv_of_emit hdone (h.row_in_grid hbusy) (h.byte_in_row hbusy) ?_ hp (h.emit_counted hp) (h.slot_clear hp)
    show (f.outcount + 1).toNat = 8 * byteIndex f + (f.j + 1).toNat
    bv_omega
  · rw [hafter]
    obtain ⟨hy, hxb, hnext⟩ := h.nextByte_position hbusy
    refine jobInv_of_fetch ?_ ?_ ?_ ?_ rfl ?_ ?_
    · simpa using hdone
    · simpa using lt_of_le_of_ne hy hmore
    · simpa using hxb
    · show f.countBeat.nextByte.outcount.toNat = 8 * byteIndex f.countBeat.nextByte + f.countBeat.nextByte.j.toNat
      rw [Fbu.nextByte_outcount, Fbu.countBeat_outcount, hout, hnext, Fbu.nextByte_j, hbeats, hj]
      rfl
    · simp
    · show f.countBeat.nextByte.incount.toNat = min (byteIndex f.countBeat.nextByte) _
      simpa [hnext] using h.emit_counted hp
  · exact h.afterBeat_of_last hp ((h.eogFlag_iff_last hbusy).2 ⟨hj, (h.nextByte_y_eq_iff hbusy).1 hend⟩)

end

theorem JobInv.of_fbuTurn {s : State} (h : JobInv s.fbu) : JobInv (fbuTurn s).fbu := by
  obtain hstep | ⟨-, hsame⟩ := fbuTurn_cases s
  · obtain ⟨p, rest, hp, hb, -, ht⟩ | ⟨hp, hb, ht⟩ | ⟨hp, -, ht⟩ := fbuStep_cases hstep <;> rw [ht]
    · exact h.loadPayload hp hb p
    · exact h.loadSlot hp hb
    · exact h.afterBeat hp
  · rwa [hsame]

theorem JobInv.of_fbuChange {f g : Fbu} {e : Event} (h : JobInv f) (hc : FbuChange f e g) (hf : e ≠ .fbu) :
    JobInv g := by
  cases hc with
  | same => exact h
  | reset => exact jobInvariantHoldsAtReset
  | geom => exact h.with_geom_errc _ f.errc
  | reserved | busy => exact h.recordError _
  | abort => exact h.abort
  | measure _ hp => exact jobInv_of_idle_start hp rfl rfl rfl rfl rfl
  | raster _ hp => exact jobInv_startRaster hp
  | payload | slot | beat => exact absurd rfl hf

theorem JobInv.of_eventState {s : State} (h : JobInv s.fbu) (e : Event) : JobInv (eventState e s).fbu := by
  by_cases hf : e = .fbu
  · subst hf
    exact h.of_fbuTurn
  · exact h.of_fbuChange (fbuChange_eventState e s) hf

/-- Settles O37: the FBU's turn keeps it step by step, and any other event leaves the job as it is, ends it, or starts
one. -/
theorem everyStepKeepsTheJobInvariant : Obligations.EveryStepKeepsTheJobInvariant := by
  intro s t h hst
  obtain rfl := (step_next_iff s t).1 hst
  exact JobInv.of_eventState (s.takeEvent_fbu.symm ▸ h) s.nextEvent

end Sys2Proof.Machine
end

section
/-! The grid beat by beat: the `n`-th beat carries a bit of grid byte `n / 8` and depends on the payload through that
byte only (41_raster.md R131, R137). -/

namespace Sys2Proof.Machine

theorem gridIndex_of_beat (lw lh : Half) (n : Nat) :
    gridIndex lw lh (beatColumn lw lh n) (beatRow lw lh n) = n / 8 := by
  rw [gridIndex, beatColumn, beatRow, rasterWidth_eq, Nat.mod_mul_right_div_self, ← Nat.div_div_eq_div_mul,
    Nat.div_add_mod']

/-- Two payloads with the same grid byte `n / 8` give the same `n`-th beat. -/
theorem jobBeat_congr {lw lh : Half} {p q : List Byte} {n : Nat}
    (h : gridByte lw lh p (n / 8) = gridByte lw lh q (n / 8)) : jobBeat lw lh p n = jobBeat lw lh q n := by
  simp only [jobBeat, jobBeatFields, gridPixel, gridIndex_of_beat, h]

theorem gridByte_of_lt {lw lh : Half} {b : Nat} (h : b < payloadSize lw lh) (p : List Byte) :
    gridByte lw lh p b = p.getD b 0 := if_pos h

theorem gridByte_of_ge {lw lh : Half} {b : Nat} (h : payloadSize lw lh ≤ b) (p : List Byte) :
    gridByte lw lh p b = 0 := if_neg (Nat.not_lt.2 h)

/-- Bytes offered later do not change a grid byte that has been offered, or that no byte reaches. -/
theorem gridByte_append {lw lh : Half} {p : List Byte} {b : Nat} (h : b < p.length ∨ payloadSize lw lh ≤ b)
    (q : List Byte) : gridByte lw lh (p ++ q) b = gridByte lw lh p b := by
  obtain hb | hb := Nat.lt_or_ge b (payloadSize lw lh)
  · have hlen : b < p.length := h.resolve_right (Nat.not_le.2 hb)
    rw [gridByte_of_lt hb, gridByte_of_lt hb, List.getD_append _ _ _ _ hlen]
  · rw [gridByte_of_ge hb, gridByte_of_ge hb]

theorem take_jobBeats {lw lh : Half} {n : Nat} (h : n ≤ jobLength lw lh) (p : List Byte) :
    (jobBeats lw lh p).take n = (List.range n).map (jobBeat lw lh p) := by
  rw [jobBeats, ← List.map_take, List.take_range, Nat.min_eq_left h]

/-- Settles O42: a beat of a glyph row is in one of the first `h * RB` grid bytes, and a slot's byte is always 0x00. -/
theorem fillBytesDoNotReachGlyphRows : Obligations.FillBytesDoNotReachGlyphRows := by
  refine fun lw lh p q n _ => ⟨fun hpq hn => jobBeat_congr ?_, fun hn => jobBeat_congr ?_⟩
  · have hdata : n / 8 < dataBytes lw lh := by
      rw [rasterWidth_eq, Nat.mul_assoc, Nat.mul_comm (rowBytes lw lh)] at hn
      rw [dataBytes]
      omega
    have hsize := hdata.trans_le (dataBytes_le_payloadSize lw lh)
    rw [gridByte_of_lt hsize, gridByte_of_lt hsize, hpq _ hdata]
  · have hslot : payloadSize lw lh ≤ n / 8 := by omega
    rw [gridByte_of_ge hslot, gridByte_of_ge hslot]

end Sys2Proof.Machine
end

section
/-! A running job delivers the grid's beats: the grid byte, the column and the row that EMIT uses are those of the
`OUTCOUNT`-th beat. -/

namespace Sys2Proof.Machine

/-- Counted row by row, the last cell is the last one of the last row. -/
theorem mul_add_succ_eq_mul_iff {w h x y : Nat} (hx : x < w) (hy : y < h) :
    w * y + x + 1 = w * h ↔ x + 1 = w ∧ y + 1 = h := by
  constructor
  · intro heq
    have hle : w * h ≤ w * (y + 1) := by
      rw [Nat.mul_succ]
      omega
    have hlast : y + 1 = h := by
      have := Nat.le_of_mul_le_mul_left hle (Nat.zero_lt_of_lt hx)
      omega
    refine ⟨?_, hlast⟩
    rw [← hlast, Nat.mul_succ] at heq
    omega
  · rintro ⟨rfl, rfl⟩
    rw [Nat.mul_succ, Nat.add_assoc]

theorem JobInv.outcount_succ_eq_jobLength_iff {f : Fbu} (h : JobInv f) (hp : f.phase ≠ .idle) :
    f.outcount.toNat + 1 = jobLength f.lw f.lh ↔
      columnOf f + 1 = rasterWidth f.lw f.lh ∧ f.y.toNat + 1 = rasterHeight f.lw f.lh := by
  rw [h.outcount_eq hp, jobLength, mul_add_succ_eq_mul_iff (h.columnOf_lt hp) (h.row_in_grid hp)]

/-- With CB holding its grid byte, the beat of EMIT is the next beat of the grid. -/
theorem JobInv.emitBeat_eq_jobBeat {f : Fbu} {p : List Byte} (h : JobInv f) (hp : f.phase = .emit)
    (hcb : f.cb = gridByte f.lw f.lh p (byteIndex f)) : emitBeat f = jobBeat f.lw f.lh p f.outcount.toNat := by
  have hbusy : f.phase ≠ .idle := by simp [hp]
  obtain ⟨hcol, hrow, hidx⟩ := beatsAreRowMajor f h hp
  have hbit : columnOf f % 8 = f.j.toNat := by
    rw [columnOf]
    omega
  have heog : eogFlag f.lw f.lh (columnOf f) f.y.toNat = (f.outcount.toNat + 1 == jobLength f.lw f.lh) := by
    rw [Bool.eq_iff_iff, beq_iff_eq, h.outcount_succ_eq_jobLength_iff hbusy, eogFlag, eorFlag, Bool.and_eq_true,
      beq_iff_eq, beq_iff_eq]
  rw [emitBeat, jobBeat, jobBeatFields, beatColumn, beatRow, ← hcol, ← hrow, ← heog, gridPixel, ← hidx, ← hcb, hbit]
  rfl

end Sys2Proof.Machine
end

section
/-! An event that neither ends nor starts a job, and is not the FBU's turn, only offers bytes, moves the sink, answers
the host, or touches GEOM and ERRC. -/

namespace Sys2Proof.Machine

theorem FbuChange.eq_of_keepsJob {f g : Fbu} {e : Event} (h : FbuChange f e g) (hk : keepsJob e) (hf : e ≠ .fbu) :
    ∃ v c, g = { f with geom := v, errc := c } := by
  obtain ⟨hreset, habort, hmeasure, hraster⟩ := hk
  cases h with
  | same => exact ⟨f.geom, f.errc, rfl⟩
  | geom => exact ⟨_, f.errc, rfl⟩
  | reserved => exact ⟨f.geom, _, Fbu.recordError_eq _ f⟩
  | busy hi => exact (hi.elim hmeasure hraster).elim
  | reset => exact absurd rfl hreset
  | abort hi => exact absurd hi habort
  | measure hi => exact absurd hi hmeasure
  | raster hi => exact absurd hi hraster
  | payload | slot | beat => exact absurd rfl hf

/-- But for the FBU's turns, IN only gets what the source offers. -/
theorem eventState_inStream_of_ne_fbu {e : Event} (hf : e ≠ .fbu) (s : State) :
    (eventState e s).inStream = s.inStream ++ offeredBy [e] := by
  cases e with
  | offer b => rfl
  | _ => exact (eventState_inStream_of_ne hf nofun s).trans (List.append_nil _).symm

/-- The latched geometry does not change during a job. -/
theorem eventState_latched_of_keepsJob {e : Event} (hk : keepsJob e) (s : State) :
    (eventState e s).fbu.lw = s.fbu.lw ∧ (eventState e s).fbu.lh = s.fbu.lh := by
  obtain ⟨hreset, -, hmeasure, hraster⟩ := hk
  by_contra hne
  obtain he | ⟨-, he | he⟩ := (fbuChange_eventState e s).latched_writers (not_and_or.1 hne)
  · exact hreset he
  · exact hmeasure he
  · exact hraster he

end Sys2Proof.Machine
end

section
/-! A job that runs or has completed: every event that keeps the job keeps it so, and completion is the only way to
IDLE (41_raster.md R140). -/

namespace Sys2Proof.Machine

/-- A job that runs or has completed: in IDLE it has popped its whole payload and delivered its whole grid. -/
structure JobRuns (f : Fbu) : Prop where
  inv : JobInv f
  completed : f.phase = .idle → f.done = true ∧ f.incount.toNat = payloadSize f.lw f.lh ∧
    f.outcount.toNat = jobLength f.lw f.lh

theorem JobRuns.of_busy {f : Fbu} (h : JobInv f) (hp : f.phase ≠ .idle) : JobRuns f :=
  ⟨h, fun hidle => absurd hidle hp⟩

theorem JobRuns.done_iff {f : Fbu} (h : JobRuns f) : f.done = true ↔ f.phase = .idle :=
  ⟨h.inv.done_idle, fun hp => (h.completed hp).1⟩

/-- The advance after a beat completes the job only with everything popped and delivered. -/
theorem JobRuns.afterBeat {f : Fbu} (h : JobInv f) (hp : f.phase = .emit) : JobRuns f.afterBeat := by
  refine ⟨h.afterBeat hp, fun hidle => ?_⟩
  cases heog : eogFlag f.lw f.lh (columnOf f) f.y.toNat with
  | false => exact absurd hidle (h.afterBeat_of_not_eog hp heog).1
  | true =>
    obtain ⟨-, hdone, -, -, -, hin, hout⟩ := h.afterBeat_of_eog hp heog
    rw [f.afterBeat_lw, f.afterBeat_lh]
    exact ⟨hdone, hin, hout⟩

theorem JobRuns.of_fbuTurn {s : State} (h : JobRuns s.fbu) : JobRuns (fbuTurn s).fbu := by
  obtain hstep | ⟨-, hsame⟩ := fbuTurn_cases s
  · obtain ⟨p, rest, hp, hb, -, ht⟩ | ⟨hp, hb, ht⟩ | ⟨hp, -, ht⟩ := fbuStep_cases hstep <;> rw [ht]
    · exact .of_busy (h.inv.loadPayload hp hb p) nofun
    · exact .of_busy (h.inv.loadSlot hp hb) nofun
    · exact .afterBeat h.inv hp
  · rwa [hsame]

theorem JobRuns.of_eventState {s : State} {e : Event} (h : JobRuns s.fbu) (hk : keepsJob e) :
    JobRuns (eventState e s).fbu := by
  by_cases hf : e = .fbu
  · subst hf
    exact h.of_fbuTurn
  · obtain ⟨v, c, hg⟩ := (fbuChange_eventState e s).eq_of_keepsJob hk hf
    rw [hg]
    exact ⟨h.inv.with_geom_errc v c, h.completed⟩

end Sys2Proof.Machine
end

section
/-! Refinement: along a job the two streams are those of the pure grid (41_raster.md section 4). -/

namespace Sys2Proof.Machine

/-- In `s` runs, or has completed, a job of the geometry `lw`, `lh` that began with `out` on OUT and to which the
source has offered the bytes `p`: IN has lost the first `INCOUNT` of them, OUT has got the first `OUTCOUNT` beats of
their grid, and in EMIT `CB` is the current grid byte. -/
structure DeliversGrid (lw lh : Half) (out : List Beat) (p : List Byte) (s : State) : Prop where
  runs : JobRuns s.fbu
  lw_eq : s.fbu.lw = lw
  lh_eq : s.fbu.lh = lh
  popped_le : s.fbu.incount.toNat ≤ p.length
  in_eq : s.inStream = p.drop s.fbu.incount.toNat
  out_eq : s.outStream = out ++ (List.range s.fbu.outcount.toNat).map (jobBeat lw lh p)
  cb_eq : s.fbu.phase = .emit → s.fbu.cb = gridByte lw lh p (byteIndex s.fbu)

/-- While the next phase is EMIT, the grid byte stays the same. -/
theorem Fbu.byteIndex_afterBeat_of_emit {f : Fbu} (hp : f.afterBeat.phase = .emit) :
    byteIndex f.afterBeat = byteIndex f := by
  obtain ⟨-, hafter⟩ | ⟨-, -, hafter⟩ | ⟨-, -, hafter⟩ := f.afterBeat_cases
  · rw [hafter]; rfl
  · simp [hafter] at hp
  · simp [hafter] at hp

/-- The grid byte of a delivered beat has been popped, or is an out-of-payload slot. -/
theorem JobRuns.gridByte_of_delivered {f : Fbu} (h : JobRuns f) {n : Nat} (hn : n < f.outcount.toNat) :
    n / 8 < f.incount.toNat ∨ payloadSize f.lw f.lh ≤ n / 8 := by
  cases hp : f.phase with
  | idle =>
    obtain ⟨-, hin, -⟩ := h.completed hp
    omega
  | fetch =>
    have hin := h.inv.fetch_counted hp
    have hout := h.inv.beats_counted (by simp [hp])
    have hj : f.j.toNat = 0 := by rw [h.inv.fetch_first_bit hp]; rfl
    omega
  | emit =>
    have hin := h.inv.emit_counted hp
    have hout := h.inv.beats_counted (by simp [hp])
    omega

/-- In EMIT the current grid byte has been popped, or is an out-of-payload slot. -/
theorem JobRuns.gridByte_of_emit {f : Fbu} (h : JobRuns f) (hp : f.phase = .emit) :
    byteIndex f < f.incount.toNat ∨ payloadSize f.lw f.lh ≤ byteIndex f := by
  have := h.inv.emit_counted hp
  omega

section
variable {lw lh : Half} {out : List Beat} {p : List Byte} {s : State} (h : DeliversGrid lw lh out p s)
include h

theorem DeliversGrid.withEvents (es : List Event) : DeliversGrid lw lh out p (s.withEvents es) := { h with }

/-- Bytes offered later change no delivered beat and no popped byte. -/
theorem DeliversGrid.offer {t : State} {q : List Byte} {v : Word} {c : ErrCause}
    (hfbu : t.fbu = { s.fbu with geom := v, errc := c }) (hin : t.inStream = s.inStream ++ q)
    (hout : t.outStream = s.outStream) : DeliversGrid lw lh out (p ++ q) t := by
  obtain ⟨hruns, rfl, rfl, hle, hin', hout', hcb⟩ := h
  have hpopped {b : Nat} (hb : b < s.fbu.incount.toNat ∨ payloadSize s.fbu.lw s.fbu.lh ≤ b) :
      gridByte s.fbu.lw s.fbu.lh (p ++ q) b = gridByte s.fbu.lw s.fbu.lh p b :=
    gridByte_append (hb.imp_left (·.trans_le hle)) q
  constructor
  case runs => exact hfbu ▸ ⟨hruns.inv.with_geom_errc v c, hruns.completed⟩
  case lw_eq => rw [hfbu]
  case lh_eq => rw [hfbu]
  case popped_le =>
    rw [hfbu, List.length_append]
    exact Nat.le_add_right_of_le hle
  case in_eq => rw [hin, hin', hfbu, List.drop_append_of_le_length hle]
  case out_eq =>
    rw [hout, hout', hfbu, List.append_cancel_left_eq]
    refine List.map_congr_left fun n hn => (jobBeat_congr (hpopped ?_)).symm
    exact hruns.gridByte_of_delivered (List.mem_range.1 hn)
  case cb_eq =>
    rw [hfbu]
    exact fun hp => (hcb hp).trans (hpopped (hruns.gridByte_of_emit hp)).symm

theorem DeliversGrid.loadPayload {b : Byte} {rest : List Byte} (hp : s.fbu.phase = .fetch)
    (hb : byteIndex s.fbu < payloadSize s.fbu.lw s.fbu.lh) (hin : s.inStream = b :: rest) :
    DeliversGrid lw lh out p { s with inStream := rest, fbu := s.fbu.loadPayload b } := by
  obtain ⟨hruns, rfl, rfl, hle, hin', hout', -⟩ := h
  have hcount := hruns.inv.fetch_counted hp
  have hsucc : (s.fbu.incount + 1).toNat = s.fbu.incount.toNat + 1 := by
    have := payloadSize_le s.fbu.lw s.fbu.lh
    bv_omega
  rw [hin] at hin'
  have hlt : s.fbu.incount.toNat < p.length :=
    Nat.lt_of_not_le fun hge => by simp [List.drop_eq_nil_of_le hge] at hin'
  rw [List.drop_eq_getElem_cons hlt] at hin'
  obtain ⟨hbyte, hrest⟩ := List.cons.inj hin'
  constructor
  case runs => exact .of_busy (hruns.inv.loadPayload hp hb b) nofun
  case lw_eq => rfl
  case lh_eq => rfl
  case popped_le => exact hsucc.trans_le hlt
  case in_eq => exact hrest.trans (by rw [← hsucc]; rfl)
  case out_eq => exact hout'
  case cb_eq =>
    intro _
    show b = gridByte s.fbu.lw s.fbu.lh p (byteIndex s.fbu)
    rw [gridByte_of_lt hb, ← Nat.min_eq_left hb.le, ← hcount, List.getD_eq_getElem _ _ hlt, hbyte]

theorem DeliversGrid.loadSlot (hp : s.fbu.phase = .fetch) (hb : payloadSize s.fbu.lw s.fbu.lh ≤ byteIndex s.fbu) :
    DeliversGrid lw lh out p (s.withFbu s.fbu.loadSlot) := by
  obtain ⟨hruns, rfl, rfl, hle, hin, hout, -⟩ := h
  exact ⟨.of_busy (hruns.inv.loadSlot hp hb) nofun, rfl, rfl, hle, hin, hout,
    fun _ => (gridByte_of_ge hb p).symm⟩

theorem DeliversGrid.deliverBeat (hp : s.fbu.phase = .emit) :
    DeliversGrid lw lh out p
      { s with outStream := s.outStream ++ [emitBeat s.fbu], fbu := s.fbu.afterBeat } := by
  obtain ⟨hruns, rfl, rfl, hle, hin, hout, hcb⟩ := h
  constructor
  case runs => exact .afterBeat hruns.inv hp
  case lw_eq => simp
  case lh_eq => simp
  case popped_le => simpa using hle
  case in_eq => simpa using hin
  case out_eq =>
    show s.outStream ++ [emitBeat s.fbu] = _
    rw [hruns.inv.emitBeat_eq_jobBeat hp (hcb hp), hout, Fbu.afterBeat_outcount, hruns.inv.outcount_succ,
      List.range_succ, List.map_append, List.append_assoc]
    rfl
  case cb_eq =>
    intro he
    rw [Fbu.afterBeat_cb, Fbu.byteIndex_afterBeat_of_emit he]
    exact hcb hp

theorem DeliversGrid.of_fbuTurn : DeliversGrid lw lh out p (fbuTurn s) := by
  obtain hstep | ⟨-, hsame⟩ := fbuTurn_cases s
  · obtain ⟨b, rest, hp, hb, hin, ht⟩ | ⟨hp, hb, ht⟩ | ⟨hp, -, ht⟩ := fbuStep_cases hstep <;> rw [ht]
    · exact h.loadPayload hp hb hin
    · exact h.loadSlot hp hb
    · exact h.deliverBeat hp
  · rwa [hsame]

theorem DeliversGrid.of_eventState {e : Event} (hk : keepsJob e) :
    DeliversGrid lw lh out (p ++ offeredBy [e]) (eventState e s) := by
  by_cases hf : e = .fbu
  · subst hf
    exact (List.append_nil p).symm ▸ h.of_fbuTurn
  · obtain ⟨v, c, hfbu⟩ := (fbuChange_eventState e s).eq_of_keepsJob hk hf
    exact h.offer hfbu (eventState_inStream_of_ne_fbu hf s) (eventState_outStream_of_ne hf s)

end

end Sys2Proof.Machine
end

section
/-! Runs over a list of fixed events: an invariant that every event of the list keeps, and one step more. -/

namespace Sys2Proof.Machine

/-- What holds at first, and is kept by each event of the list, holds after them: `P past s` says of `s` that it is so
after the events `past`. -/
theorem exists_runSteps_of_invariant {P : List Event → State → Prop} {es rest : List Event}
    (hevents : ∀ past s next, P past s → P past (s.withEvents next))
    (hstep : ∀ past s, ∀ e ∈ es, P past s → P (past ++ [e]) (eventState e s)) {past : List Event} {s : State}
    (he : s.events = es ++ rest) (h : P past s) :
    ∃ t, runSteps es.length s = .next t ∧ t.events = rest ∧ P (past ++ es) t := by
  induction es generalizing past s with
  | nil => exact ⟨s, rfl, he, (List.append_nil past).symm ▸ h⟩
  | cons e es ih =>
    rw [List.cons_append] at he
    have hstate : stepState s = eventState e (s.withEvents (es ++ rest)) := by
      rw [stepState, State.nextEvent_of_events he, State.takeEvent_of_events he]
    have hkept := hstep past _ e List.mem_cons_self (hevents past s (es ++ rest) h)
    obtain ⟨t, ht, hrest, hP⟩ := ih (fun past s e' he' => hstep past s e' (List.mem_cons_of_mem e he'))
      (past := past ++ [e]) (s := stepState s) (by rw [stepState_events, he]; rfl) (hstate ▸ hkept)
    exact ⟨t, by rw [List.length_cons, runSteps_succ, ht], hrest, by simpa using hP⟩

theorem runSteps_succ_of_last {n : Nat} {s u t : State} (hu : runSteps n s = .next u) (ht : step u = .next t) :
    runSteps (n + 1) s = .next t := by
  induction n generalizing s with
  | zero =>
    obtain rfl := Host.Outcome.next.inj hu
    exact runSteps_succ_of_step ht 0
  | succ n ih =>
    rw [runSteps_succ] at hu ⊢
    exact ih hu

theorem offeredBy_append (es fs : List Event) : offeredBy (es ++ fs) = offeredBy es ++ offeredBy fs :=
  List.flatMap_append

end Sys2Proof.Machine
end

section
/-! Whole jobs: the accepted RASTER starts one, and every run of events that keep it delivers its grid
(41_raster.md section 4). -/

namespace Sys2Proof.Machine

/-- The machine after the accepted RASTER of a non-empty glyph, with `rest` as the events to come. -/
def State.startJob (rest : List Event) (s : State) : State :=
  ((s.withEvents rest).respond .written).withFbu ((s.fbu.latch.setDone false).setPhase .fetch)

theorem step_of_command {s : State} {i : Instr} {rest : List Event} (he : s.events = commandEvent (encode i) :: rest) :
    step s = exec i ((s.withEvents rest).respond .written) := by
  rw [step_of_events he, handleEvent_commandEvent, command_encode]

section
variable {s : State} (hp : s.fbu.phase = .idle) (hne : isEmpty (geomWidth s.fbu.geom) (geomHeight s.fbu.geom) = false)
include hp hne

theorem step_of_raster {rest : List Event} (he : s.events = commandEvent (encode .raster) :: rest) :
    step s = .next (s.startJob rest) := by
  rw [step_of_command he, exec_raster_of_idle (s := (s.withEvents rest).respond .written) hp,
    State.respond_fbu, State.withEvents_fbu, Fbu.startRaster_of_not_isEmpty hne]
  rfl

theorem deliversGrid_startJob (rest : List Event) :
    DeliversGrid (geomWidth s.fbu.geom) (geomHeight s.fbu.geom) s.outStream s.inStream (s.startJob rest) where
  runs := by
    refine .of_busy ?_ nofun
    rw [State.startJob, State.withFbu_fbu, ← Fbu.startRaster_of_not_isEmpty hne]
    exact jobInv_startRaster hp
  lw_eq := rfl
  lh_eq := rfl
  popped_le := Nat.zero_le _
  in_eq := rfl
  out_eq := (List.append_nil _).symm
  cb_eq := nofun

/-- After the accepted RASTER and any events that keep the job, the streams are those of the grid; so is whatever else
holds at the start and is kept by each of the events. -/
theorem exists_run_of_raster {Q : List Event → State → Prop} {es rest : List Event}
    (he : s.events = commandEvent (encode .raster) :: (es ++ rest)) (hk : ∀ e ∈ es, keepsJob e)
    (hstart : ∀ next, Q [] (s.startJob next)) (hevents : ∀ past t next, Q past t → Q past (t.withEvents next))
    (hstep : ∀ past t, ∀ e ∈ es,
      DeliversGrid (geomWidth s.fbu.geom) (geomHeight s.fbu.geom) s.outStream (s.inStream ++ offeredBy past) t →
      Q past t → Q (past ++ [e]) (eventState e t)) :
    ∃ t, runSteps (es.length + 1) s = .next t ∧ t.events = rest ∧
      DeliversGrid (geomWidth s.fbu.geom) (geomHeight s.fbu.geom) s.outStream (s.inStream ++ offeredBy es) t ∧
      Q es t := by
  rw [runSteps_succ_of_step (step_of_raster hp hne he)]
  refine exists_runSteps_of_invariant (past := [])
    (P := fun past t => DeliversGrid (geomWidth s.fbu.geom) (geomHeight s.fbu.geom) s.outStream
      (s.inStream ++ offeredBy past) t ∧ Q past t)
    (fun past t next ⟨hgrid, hQ⟩ => ⟨hgrid.withEvents next, hevents past t next hQ⟩)
    (fun past t e hmem ⟨hgrid, hQ⟩ => ⟨?_, hstep past t e hmem hgrid hQ⟩) rfl ⟨?_, hstart _⟩
  · rw [offeredBy_append, ← List.append_assoc]
    exact hgrid.of_eventState (hk e hmem)
  · exact (List.append_nil s.inStream).symm ▸ deliversGrid_startJob hp hne (es ++ rest)

theorem exists_deliversGrid_of_raster {es rest : List Event}
    (he : s.events = commandEvent (encode .raster) :: (es ++ rest)) (hk : ∀ e ∈ es, keepsJob e) :
    ∃ t, runSteps (es.length + 1) s = .next t ∧ t.events = rest ∧
      DeliversGrid (geomWidth s.fbu.geom) (geomHeight s.fbu.geom) s.outStream (s.inStream ++ offeredBy es) t := by
  obtain ⟨t, ht, hrest, hgrid, -⟩ := exists_run_of_raster hp hne (Q := fun _ _ => True) he hk (fun _ => trivial)
    (fun _ _ _ _ => trivial) (fun _ _ _ _ _ _ => trivial)
  exact ⟨t, ht, hrest, hgrid⟩

end

section
variable {lw lh : Half} {out : List Beat} {p : List Byte} {s : State} (h : DeliversGrid lw lh out p s)
include h

theorem DeliversGrid.incount_le : s.fbu.incount.toNat ≤ payloadSize lw lh := by
  rw [← h.lw_eq, ← h.lh_eq]
  exact h.runs.inv.incount_le

theorem DeliversGrid.outcount_le : s.fbu.outcount.toNat ≤ jobLength lw lh := by
  rw [← h.lw_eq, ← h.lh_eq]
  exact h.runs.inv.outcount_le

theorem DeliversGrid.counts_of_idle (hp : s.fbu.phase = .idle) :
    s.fbu.incount.toNat = payloadSize lw lh ∧ s.fbu.outcount.toNat = jobLength lw lh := by
  rw [← h.lw_eq, ← h.lh_eq]
  exact (h.runs.completed hp).2

theorem DeliversGrid.outStream_eq_take : s.outStream = out ++ (jobBeats lw lh p).take s.fbu.outcount.toNat := by
  rw [h.out_eq, take_jobBeats h.outcount_le]

end

/-- Settles O38: RASTER starts a job that delivers the grid of what the source offers, every event keeps that, and in
IDLE the job is complete. -/
theorem rasterRunDeliversTheGrid : Obligations.RasterRunDeliversTheGrid := by
  rintro s es rest lw lh hp rfl rfl hne he hk
  obtain ⟨t, ht, hrest, h⟩ := exists_deliversGrid_of_raster hp hne he hk
  refine ⟨t, ht, hrest, h.lw_eq, h.lh_eq, h.outStream_eq_take, h.in_eq, h.popped_le, h.incount_le, h.outcount_le,
    h.runs.done_iff, fun hd => ?_⟩
  obtain ⟨hin, hout⟩ := h.counts_of_idle (h.runs.done_iff.1 hd)
  exact ⟨hin, hout, hin ▸ h.popped_le⟩

/-- Settles O41: ABORT comes upon a job that delivers the grid, and keeps the counters and both streams. -/
theorem abortedJobTellsWhatItPopped : Obligations.AbortedJobTellsWhatItPopped := by
  rintro s es rest lw lh hp rfl rfl hne he hk
  obtain ⟨u, hu, hnext, h⟩ := exists_deliversGrid_of_raster hp hne he hk
  exact ⟨_, runSteps_succ_of_last hu ((step_of_command hnext).trans (abortEndsAnyJob _)), rfl, rfl, rfl, rfl, h.lw_eq,
    h.lh_eq, h.incount_le, h.popped_le, h.in_eq, h.outStream_eq_take⟩

end Sys2Proof.Machine
end

section
/-! The turns that a job still needs: nine for each grid byte, one FETCH and eight beats. Each enabled turn takes one
off, and no other event that keeps the job touches them (70_reset_and_hazards.md section 4). -/

namespace Sys2Proof.Machine

/-- How many enabled turns a job still needs until it completes. -/
def turnsLeft (f : Fbu) : Nat :=
  match f.phase with
  | .idle => 0
  | .fetch => 9 * (gridBytes f.lw f.lh - byteIndex f)
  | .emit => 9 * (gridBytes f.lw f.lh - byteIndex f) - (1 + f.j.toNat)

theorem turnsLeft_of_idle {f : Fbu} (hp : f.phase = .idle) : turnsLeft f = 0 := by
  rw [turnsLeft, hp]

theorem turnsLeft_of_fetch {f : Fbu} (hp : f.phase = .fetch) :
    turnsLeft f = 9 * (gridBytes f.lw f.lh - byteIndex f) := by
  rw [turnsLeft, hp]

theorem turnsLeft_of_emit {f : Fbu} (hp : f.phase = .emit) :
    turnsLeft f = 9 * (gridBytes f.lw f.lh - byteIndex f) - (1 + f.j.toNat) := by
  rw [turnsLeft, hp]

theorem JobInv.turnsLeft_pos {f : Fbu} (h : JobInv f) (hp : f.phase ≠ .idle) : 0 < turnsLeft f := by
  have hlt := h.byteIndex_lt hp
  cases hphase : f.phase with
  | idle => exact absurd hphase hp
  | fetch =>
    rw [turnsLeft_of_fetch hphase]
    omega
  | emit =>
    rw [turnsLeft_of_emit hphase]
    omega

/-- The advance after a beat takes one turn off: of the same byte, up to the next byte, or the last one of the job. -/
theorem JobInv.turnsLeft_afterBeat {f : Fbu} (h : JobInv f) (hp : f.phase = .emit) :
    turnsLeft f.afterBeat + 1 = turnsLeft f := by
  have hbusy : f.phase ≠ .idle := by simp [hp]
  have hlt := h.byteIndex_lt hbusy
  obtain ⟨-, -, hnext⟩ := h.nextByte_position hbusy
  rw [turnsLeft_of_emit hp]
  obtain ⟨hj, hafter⟩ | ⟨hj, -, hafter⟩ | ⟨hj, hend, hafter⟩ := f.afterBeat_cases
  · have hphase : f.countBeat.nextBit.phase = .emit := hp
    rw [hafter, turnsLeft_of_emit hphase]
    show 9 * (gridBytes f.lw f.lh - byteIndex f) - (1 + (f.j + 1).toNat) + 1 = _
    bv_omega
  · rw [hafter, turnsLeft_of_fetch rfl]
    show 9 * (gridBytes f.countBeat.nextByte.lw f.countBeat.nextByte.lh - byteIndex f.countBeat.nextByte) + 1 = _
    rw [hnext, Fbu.nextByte_lw, Fbu.nextByte_lh, Fbu.countBeat_lw, Fbu.countBeat_lh, hj]
    omega
  · obtain ⟨hxb, hy⟩ := (h.nextByte_y_eq_iff hbusy).1 hend
    have hlast := byteIndex_succ_of_last hxb hy
    rw [hafter, turnsLeft_of_idle rfl, hj]
    omega

theorem JobInv.turnsLeft_fbuStep {s t : State} (h : JobInv s.fbu) (hst : fbuStep s = some t) :
    turnsLeft t.fbu + 1 = turnsLeft s.fbu := by
  have hload (cb : Byte) (incount : BitVec 32) (hp : s.fbu.phase = .fetch) :
      turnsLeft { s.fbu with cb := cb, incount := incount, phase := .emit } + 1 = turnsLeft s.fbu := by
    have hlt := h.byteIndex_lt (by simp [hp])
    have hj := h.fetch_first_bit hp
    rw [turnsLeft_of_fetch hp, turnsLeft_of_emit rfl]
    show 9 * (gridBytes s.fbu.lw s.fbu.lh - byteIndex s.fbu) - (1 + s.fbu.j.toNat) + 1 = _
    bv_omega
  obtain ⟨b, rest, hp, -, -, rfl⟩ | ⟨hp, -, rfl⟩ | ⟨hp, -, rfl⟩ := fbuStep_cases hst
  · exact hload b _ hp
  · exact hload 0 _ hp
  · exact h.turnsLeft_afterBeat hp

theorem JobInv.turnsLeft_of_enabled {s : State} (h : JobInv s.fbu) (hen : fbuEnabled s) :
    turnsLeft (eventState .fbu s).fbu + 1 = turnsLeft s.fbu := by
  obtain ⟨t, ht⟩ := Option.isSome_iff_exists.1 hen
  rw [eventState, fbuTurn, ht]
  exact h.turnsLeft_fbuStep ht

theorem JobInv.turnsLeft_eventState_le {s : State} {e : Event} (h : JobInv s.fbu) (hk : keepsJob e) :
    turnsLeft (eventState e s).fbu ≤ turnsLeft s.fbu := by
  by_cases hf : e = .fbu
  · subst hf
    obtain hstep | ⟨-, hsame⟩ := fbuTurn_cases s
    · exact (Nat.le_succ _).trans_eq (h.turnsLeft_fbuStep hstep)
    · rw [eventState, hsame]
  · obtain ⟨v, c, hg⟩ := (fbuChange_eventState e s).eq_of_keepsJob hk hf
    rw [hg]
    exact Nat.le_refl _

/-- With the sink ready and the missing bytes on IN, a running job does not wait. -/
theorem JobInv.enabled_of_supplied {s : State} (h : JobInv s.fbu) (hp : s.fbu.phase ≠ .idle) (hr : s.sinkReady = true)
    (hsupplied : payloadSize s.fbu.lw s.fbu.lh ≤ s.fbu.incount.toNat + s.inStream.length) : fbuEnabled s := by
  refine (fbuEnabled_iff s).2 ⟨hp, fun ⟨hfetch, hb, hin⟩ => ?_, fun ⟨_, hnot⟩ => ?_⟩
  · have hcount := h.fetch_counted hfetch
    simp only [hin, List.length_nil] at hsupplied
    omega
  · simp [hr] at hnot

theorem fbuTurn_sinkReady (s : State) : (fbuTurn s).sinkReady = s.sinkReady := by
  obtain hstep | ⟨-, hsame⟩ := fbuTurn_cases s
  · obtain ⟨p, rest, -, -, -, ht⟩ | ⟨-, -, ht⟩ | ⟨-, -, ht⟩ := fbuStep_cases hstep <;> simp [ht]
  · rw [hsame]

theorem eventState_sinkReady_of_ready {e : Event} {s : State} (hr : s.sinkReady = true) (hs : e ≠ .sink false) :
    (eventState e s).sinkReady = true := by
  cases e with
  | fbu => exact (fbuTurn_sinkReady s).trans hr
  | sink r =>
    cases r with
    | false => exact absurd rfl hs
    | true => rfl
  | bus a =>
    simp only [eventState]
    split <;> exact hr
  | _ => exact hr

end Sys2Proof.Machine
end

section
/-! Bounded completion: with the whole payload offered and the sink ready, every turn of a running job is enabled
(70_reset_and_hazards.md section 4). -/

namespace Sys2Proof.Machine

/-- After the events `past`, at least that many of the job's turns are taken as `past` has, and the sink is ready. -/
structure TurnsTaken (past : List Event) (s : State) : Prop where
  ready : s.sinkReady = true
  left_le : turnsLeft s.fbu ≤ 9 * gridBytes s.fbu.lw s.fbu.lh - turnsIn past

theorem turnsIn_append_singleton (past : List Event) (e : Event) :
    turnsIn (past ++ [e]) = turnsIn past + if e = .fbu then 1 else 0 := by
  by_cases he : e = .fbu <;> simp [turnsIn, he]

theorem TurnsTaken.of_eventState {past : List Event} {s : State} {e : Event} (h : TurnsTaken past s)
    (hruns : JobRuns s.fbu) (hk : keepsJob e) (hs : e ≠ .sink false)
    (hsupplied : payloadSize s.fbu.lw s.fbu.lh ≤ s.fbu.incount.toNat + s.inStream.length) :
    TurnsTaken (past ++ [e]) (eventState e s) := by
  refine ⟨eventState_sinkReady_of_ready h.ready hs, ?_⟩
  have hleft := h.left_le
  have hmono := hruns.inv.turnsLeft_eventState_le hk
  obtain ⟨hlw, hlh⟩ := eventState_latched_of_keepsJob hk s
  rw [hlw, hlh, turnsIn_append_singleton]
  split
  · next hf =>
    subst hf
    by_cases hp : s.fbu.phase = .idle
    · rw [turnsLeft_of_idle hp] at hmono
      omega
    · have hone := hruns.inv.turnsLeft_of_enabled (hruns.inv.enabled_of_supplied hp h.ready hsupplied)
      omega
  · omega

theorem turnsTaken_startJob {s : State} (rest : List Event) (hr : s.sinkReady = true) :
    TurnsTaken [] (s.startJob rest) := by
  refine ⟨hr, ?_⟩
  rw [turnsLeft_of_fetch rfl]
  show 9 * (gridBytes _ _ - _) ≤ 9 * gridBytes (s.startJob rest).fbu.lw (s.startJob rest).fbu.lh - 0
  omega

theorem TurnsTaken.withEvents {past : List Event} {s : State} (h : TurnsTaken past s) (next : List Event) :
    TurnsTaken past (s.withEvents next) := { h with }

/-- The bytes popped and the bytes still on IN are all that were offered. -/
theorem DeliversGrid.supplied {lw lh : Half} {out : List Beat} {p q : List Byte} {s : State}
    (h : DeliversGrid lw lh out (p ++ q) s) (hsize : payloadSize lw lh ≤ p.length) :
    payloadSize s.fbu.lw s.fbu.lh ≤ s.fbu.incount.toNat + s.inStream.length := by
  have hle := h.popped_le
  rw [List.length_append] at hle
  rw [h.lw_eq, h.lh_eq, h.in_eq, List.length_drop, List.length_append]
  omega

/-- The grid does not depend on the bytes beyond the payload. -/
theorem jobBeats_take_append {lw lh : Half} {p : List Byte} (hsize : payloadSize lw lh ≤ p.length) (q : List Byte) :
    jobBeats lw lh (p.take (payloadSize lw lh)) = jobBeats lw lh (p ++ q) := by
  conv_rhs => rw [← p.take_append_drop (payloadSize lw lh), List.append_assoc]
  refine List.map_congr_left fun n _ => (jobBeat_congr (gridByte_append ?_ _)).symm
  rw [List.length_take, Nat.min_eq_left hsize]
  exact Nat.lt_or_ge _ _

/-- What a completed job leaves on the streams. -/
theorem DeliversGrid.streams_of_completed {lw lh : Half} {out : List Beat} {p : List Byte} {s : State}
    (h : DeliversGrid lw lh out p s) (hp : s.fbu.phase = .idle) :
    s.outStream = out ++ jobBeats lw lh p ∧ s.inStream = p.drop (payloadSize lw lh) := by
  obtain ⟨hall, hbeats⟩ := h.counts_of_idle hp
  exact ⟨by rw [h.out_eq, hbeats]; rfl, by rw [h.in_eq, hall]⟩

/-- Settles O39: every turn of the FBU takes one off the nine for each grid byte until the job completes. -/
theorem rasterRunCompletes : Obligations.RasterRunCompletes := by
  rintro s es rest lw lh hp rfl rfl hne he hk hr hsize hturns
  obtain ⟨t, ht, -, hgrid, htaken⟩ := exists_run_of_raster hp hne (Q := TurnsTaken) he (fun e hmem => (hk e hmem).1)
    (turnsTaken_startJob · hr) (fun _ _ next h => h.withEvents next) fun past u e hmem hgrid h =>
      h.of_eventState hgrid.runs (hk e hmem).1 (hk e hmem).2 (hgrid.supplied hsize)
  have hidle : t.fbu.phase = .idle := by
    by_contra hbusy
    have hpos := hgrid.runs.inv.turnsLeft_pos hbusy
    have hle := htaken.left_le
    rw [hgrid.lw_eq, hgrid.lh_eq, gridBytes] at hle
    omega
  obtain ⟨hout, hin⟩ := hgrid.streams_of_completed hidle
  refine ⟨t, ht, hgrid.runs.done_iff.2 hidle, hidle, ?_, ?_⟩
  · rw [hout, jobBeats_take_append hsize]
  · rw [hin, List.drop_append_of_le_length hsize]

end Sys2Proof.Machine
end

section
/-! Infinite runs that keep the job: what is supplied does not shrink, the turns left do not grow, and a job whose
enabled turns are taken again and again completes (70_reset_and_hazards.md section 4). -/

namespace Sys2Proof.Machine

theorem fbuTurn_supplied {s : State} (h : JobInv s.fbu) :
    (fbuTurn s).fbu.incount.toNat + (fbuTurn s).inStream.length = s.fbu.incount.toNat + s.inStream.length := by
  obtain hstep | ⟨-, hsame⟩ := fbuTurn_cases s
  · obtain ⟨p, rest, hp, hb, hin, ht⟩ | ⟨-, -, ht⟩ | ⟨-, -, ht⟩ := fbuStep_cases hstep <;> rw [ht]
    · have hcount := h.fetch_counted hp
      have hsize := payloadSize_le s.fbu.lw s.fbu.lh
      rw [hin, List.length_cons]
      show (s.fbu.incount + 1).toNat + rest.length = _
      bv_omega
    · rfl
    · simp
  · rw [hsame]

/-- An event that keeps the job takes no byte away but by popping it. -/
theorem supplied_le_eventState {s : State} {e : Event} (h : JobInv s.fbu) (hk : keepsJob e) :
    s.fbu.incount.toNat + s.inStream.length ≤
      (eventState e s).fbu.incount.toNat + (eventState e s).inStream.length := by
  by_cases hf : e = .fbu
  · subst hf
    exact (fbuTurn_supplied h).ge
  · obtain ⟨v, c, hg⟩ := (fbuChange_eventState e s).eq_of_keepsJob hk hf
    rw [hg, eventState_inStream_of_ne_fbu hf, List.length_append]
    exact Nat.add_le_add_left (Nat.le_add_right ..) _

/-- A sequence of numbers that never grows does not drop again and again. -/
theorem not_drops_forever {f : Nat → Nat} (hf : Antitone f) : ¬ ∀ n, ∃ m, n ≤ m ∧ f (m + 1) < f m := by
  intro hdrop
  obtain ⟨m, hm, hlt⟩ := hdrop (Function.argmin f)
  have hmin := Function.argmin_le f (m + 1)
  have hle := hf hm
  omega

section
variable {e : Nat → Event} {r : Nat → State} (hrun : IsRun e r) (hk : ∀ n, keepsJob (e n)) (h0 : JobRuns (r 0).fbu)
include hrun hk

theorem latched_of_run (n : Nat) : (r n).fbu.lw = (r 0).fbu.lw ∧ (r n).fbu.lh = (r 0).fbu.lh := by
  induction n with
  | zero => exact ⟨rfl, rfl⟩
  | succ n ih =>
    obtain ⟨hlw, hlh⟩ := eventState_latched_of_keepsJob (hk n) (r n)
    rw [isRun_iff.1 hrun n]
    exact ⟨hlw.trans ih.1, hlh.trans ih.2⟩

include h0

theorem jobRuns_of_run (n : Nat) : JobRuns (r n).fbu := by
  induction n with
  | zero => exact h0
  | succ n ih => exact isRun_iff.1 hrun n ▸ ih.of_eventState (hk n)

theorem supplied_mono : Monotone fun n => (r n).fbu.incount.toNat + (r n).inStream.length :=
  monotone_nat_of_le_succ fun n => by
    rw [isRun_iff.1 hrun n]
    exact supplied_le_eventState (jobRuns_of_run hrun hk h0 n).inv (hk n)

theorem turnsLeft_antitone : Antitone fun n => turnsLeft (r n).fbu :=
  antitone_nat_of_succ_le fun n => by
    rw [isRun_iff.1 hrun n]
    exact (jobRuns_of_run hrun hk h0 n).inv.turnsLeft_eventState_le (hk n)

/-- The job completes if, as long as it has not, enabled turns of the FBU are taken again and again. -/
theorem completes_of_turns_taken
    (htaken : (∀ n, (r n).fbu.phase ≠ .idle) → ∀ n, ∃ m, n ≤ m ∧ e m = .fbu ∧ fbuEnabled (r m)) :
    ∃ n, (r n).fbu.done = true ∧ (r n).fbu.phase = .idle := by
  by_contra hnever
  have hbusy (n : Nat) (hp : (r n).fbu.phase = .idle) : False :=
    hnever ⟨n, (jobRuns_of_run hrun hk h0 n).done_iff.2 hp, hp⟩
  refine not_drops_forever (turnsLeft_antitone hrun hk h0) fun n => ?_
  obtain ⟨m, hm, he, hen⟩ := htaken hbusy n
  have hone := (jobRuns_of_run hrun hk h0 m).inv.turnsLeft_of_enabled hen
  rw [← he, ← isRun_iff.1 hrun m] at hone
  exact ⟨m, hm, hone ▸ Nat.lt_succ_self _⟩

/-- Once all missing bytes have been offered, a running job is enabled whenever the sink is ready. -/
theorem enabled_of_supplied_before {n m : Nat} (hm : n ≤ m) (hbusy : (r m).fbu.phase ≠ .idle)
    (hr : (r m).sinkReady = true)
    (hsupplied : payloadSize (r 0).fbu.lw (r 0).fbu.lh ≤ (r n).fbu.incount.toNat + (r n).inStream.length) :
    fbuEnabled (r m) := by
  obtain ⟨hlw, hlh⟩ := latched_of_run hrun hk m
  refine (jobRuns_of_run hrun hk h0 m).inv.enabled_of_supplied hbusy hr ?_
  rw [hlw, hlh]
  exact hsupplied.trans (supplied_mono hrun hk h0 hm)

end

theorem sinkReady_of_run {e : Nat → Event} {r : Nat → State} (hrun : IsRun e r) (hs : ∀ n, e n ≠ .sink false)
    (h0 : (r 0).sinkReady = true) (n : Nat) : (r n).sinkReady = true := by
  induction n with
  | zero => exact h0
  | succ n ih => exact isRun_iff.1 hrun n ▸ eventState_sinkReady_of_ready ih (hs n)

/-- Settles O40: the running job is always enabled, so weak fairness takes its turns again and again. -/
theorem fairRunCompletesTheJob : Obligations.FairRunCompletesTheJob := by
  intro e r hrun hfair h0 hp0 hr0 hsupplied hkeeps
  have hk (n : Nat) : keepsJob (e n) := (hkeeps n).1
  have hruns : JobRuns (r 0).fbu := .of_busy h0 hp0
  refine completes_of_turns_taken hrun hk hruns fun hbusy n => ?_
  have hen (m : Nat) : fbuEnabled (r m) :=
    enabled_of_supplied_before hrun hk hruns (Nat.zero_le m) (hbusy m)
      (sinkReady_of_run hrun (fun n => (hkeeps n).2) hr0 m) hsupplied
  obtain ⟨m, hm, he⟩ := hfair n fun m _ => hen m
  exact ⟨m, hm, he, hen m⟩

/-- Settles O47: from the time when all bytes are offered, the job is enabled whenever the sink is ready, so it is
enabled, and hence takes its turns, again and again. -/
theorem sinkReadyInfinitelyOftenCompletesTheJob : Obligations.SinkReadyInfinitelyOftenCompletesTheJob := by
  rintro e r hrun hfair h0 hp0 hk ⟨k, hsupplied⟩ hready
  have hruns : JobRuns (r 0).fbu := .of_busy h0 hp0
  refine completes_of_turns_taken hrun hk hruns fun hbusy => hfair.taken fun n => ?_
  obtain ⟨m, hm, hr⟩ := hready (max n k)
  exact ⟨m, (le_max_left n k).trans hm,
    enabled_of_supplied_before hrun hk hruns ((le_max_right n k).trans hm) (hbusy m) hr hsupplied⟩

end Sys2Proof.Machine
end

section
/-! The frame of a command: what none of the four touches, and what a rejected one leaves (42_control.md R172 to
R174). -/

namespace Sys2Proof.Machine

theorem commandFbu_geom (w : Word) (f : Fbu) : (commandFbu w f).geom = f.geom := by
  obtain ⟨r, -, h⟩ | ⟨-, h⟩ | ⟨-, h⟩ | ⟨-, -, h⟩ | ⟨-, -, h⟩ | ⟨-, -, h⟩ := commandFbu_cases w f <;> simp [h]

section
variable {w : Word} {f : Fbu} (ha : decode w ≠ .ok .abort)
include ha

theorem commandFbu_of_busy (hp : f.phase ≠ .idle) : commandFbu w f = { f with errc := (commandFbu w f).errc } := by
  obtain ⟨r, -, h⟩ | ⟨-, h⟩ | ⟨hd, -⟩ | ⟨-, -, h⟩ | ⟨-, hidle, -⟩ | ⟨-, hidle, -⟩ := commandFbu_cases w f
  · rw [h, Fbu.recordError_eq]
  · rw [h]
  · exact absurd hd ha
  · rw [h, Fbu.recordError_eq]
  · exact absurd hidle hp
  · exact absurd hidle hp

/-- A recorded cause stays: only ABORT clears it. -/
theorem commandFbu_errc_of_ne (herr : f.errc ≠ .none) : (commandFbu w f).errc = f.errc := by
  obtain ⟨r, -, h⟩ | ⟨-, h⟩ | ⟨hd, -⟩ | ⟨-, -, h⟩ | ⟨-, -, h⟩ | ⟨-, -, h⟩ := commandFbu_cases w f
  · rw [h, Fbu.recordError_errc_of_ne herr]
  · rw [h]
  · exact absurd hd ha
  · rw [h, Fbu.recordError_errc_of_ne herr]
  · simp [h]
  · simp [h]

end

/-- Settles O10: a command only replaces the FBU, by one that `commandFbu_cases` gives. -/
theorem commandsTouchOnlyTheirElements : Obligations.CommandsTouchOnlyTheirElements := by
  intro i s t hexec
  rw [exec_eq] at hexec
  obtain rfl := Host.Outcome.next.inj hexec
  have hne (hi : i ≠ .abort) : decode (encode i) ≠ .ok .abort := by
    rw [decode_encode_eq]
    simpa using hi
  exact ⟨commandFbu_geom _ _, rfl, rfl, rfl, rfl, rfl, rfl, fun hp hi => commandFbu_of_busy (hne hi) hp,
    fun herr hi => commandFbu_errc_of_ne (hne hi) herr⟩

/-- Settles O12: `stepState` is a total function, and takes exactly the first event off. -/
theorem everyStepGivesANextState : Obligations.EveryStepGivesANextState :=
  fun s => ⟨stepState s, step_eq s, stepState_events s⟩

end Sys2Proof.Machine
end

section
/-! The properties of the geometry functions and the three ranges of grid bytes (40_geometry.md section 1). -/

namespace Sys2Proof.Machine

theorem payloadSize_mod_four (lw lh : Half) : payloadSize lw lh % 4 = 0 := by
  cases h : isEmpty lw lh
  · rw [payloadSize_of_not_isEmpty h, Nat.mul_mod_right]
  · rw [payloadSize_of_isEmpty h]

theorem rasterHeight_mod_four (lw lh : Half) : rasterHeight lw lh % 4 = 0 := by
  cases h : isEmpty lw lh
  · rw [rasterHeight_of_not_isEmpty h, Nat.mul_mod_right]
  · rw [rasterHeight_of_isEmpty h]

/-- One byte in each row: the rows and the bytes are padded to the same multiple of 4. -/
theorem gridBytes_eq_payloadSize {lw lh : Half} (h1 : rowBytes lw lh = 1) : gridBytes lw lh = payloadSize lw lh := by
  have hne : isEmpty lw lh = false := by
    rw [← Bool.not_eq_true]
    intro he
    simp [rowBytes_of_isEmpty he] at h1
  rw [gridBytes, payloadSize_of_not_isEmpty hne, dataBytes, h1, rasterHeight_of_not_isEmpty hne, Nat.mul_one,
    Nat.mul_one]

section
variable {lw lh : Half} (hw : 0 < lw.toInt) (hh : 0 < lh.toInt)
include hw hh

theorem fill_le_three : lh.toInt * rowBytes lw lh ≤ payloadSize lw lh ∧
    payloadSize lw lh - lh.toInt * rowBytes lw lh ≤ 3 := by
  rw [payloadSize_eq_toInt hw hh]
  omega

theorem rasterWidth_padding : lw.toInt ≤ rasterWidth lw lh ∧ rasterWidth lw lh - lw.toInt ≤ 7 := by
  have := rowBytes_eq_toInt hw hh
  rw [rasterWidth_eq]
  omega

theorem rasterHeight_padding : lh.toInt ≤ rasterHeight lw lh ∧ rasterHeight lw lh - lh.toInt ≤ 3 := by
  rw [rasterHeight_eq_toInt hw hh]
  omega

end

/-- Settles O22: each bound is that of one rounding up. -/
theorem paddingProperties : Obligations.PaddingProperties := by
  refine fun lw lh => ⟨payloadSize_mod_four lw lh, fill_le_three, ?_, payloadSize_le_gridBytes lw lh,
    gridBytes_eq_payloadSize, ?_, rasterHeight_mod_four lw lh, fun hw hh => ?_⟩
  · rw [payloadSize_eq_zero_iff, isEmpty_iff_toInt]
  · rw [rasterWidth_eq, Nat.mul_mod_right]
  · obtain ⟨hle, hpad⟩ := rasterWidth_padding hw hh
    exact ⟨hle, hpad, rasterHeight_padding hw hh⟩

/-- The class of a grid byte of a row, by the range of its index: a row below `h` is one of the first `h * RB` bytes,
which all lie below SIZE. -/
theorem pixelClass_of_gridByte {lw lh : Half} (hne : isEmpty lw lh = false) (b : Nat) :
    pixelClass lw lh (b / rowBytes lw lh) b =
      if b < dataBytes lw lh then .data else if b < payloadSize lw lh then .fill else .oob :=
  if_congr (Nat.div_lt_iff_lt_mul (rowBytes_pos hne)) rfl rfl

/-- Settles O23: a grid byte's class is decided by its index alone. -/
theorem classesAreTheThreeRanges : Obligations.ClassesAreTheThreeRanges := by
  intro lw lh b hb
  have hne : isEmpty lw lh = false := by
    rw [← Bool.not_eq_true]
    intro he
    simp [rowBytes_of_isEmpty he] at hb
  have hh : 0 < lh.toInt := by
    have := (isEmpty_eq_false_iff lw lh).1 hne
    rw [logicalHeight_eq_toNat] at this
    omega
  have hle := dataBytes_le_payloadSize lw lh
  rw [pixelClass_of_gridByte hne, ← dataBytes_eq_toInt hh]
  by_cases hdata : b < dataBytes lw lh
  · simp only [if_pos hdata, reduceCtorEq, true_iff, false_iff]
    omega
  by_cases hfill : b < payloadSize lw lh
  · simp only [if_neg hdata, if_pos hfill, reduceCtorEq, true_iff, false_iff]
    omega
  · simp only [if_neg hdata, if_neg hfill, reduceCtorEq, true_iff, false_iff]
    omega

end Sys2Proof.Machine
end

section
/-! IN: an offer goes to its end, and only a FETCH below SIZE takes a byte off its front, in the order of the beats
(20_memory.md sections 4 and 5). -/

namespace Sys2Proof.Machine

theorem JobInv.incount_lt_of_fetch {f : Fbu} (h : JobInv f) (hp : f.phase = .fetch)
    (hb : byteIndex f < payloadSize f.lw f.lh) : f.incount.toNat < payloadSize f.lw f.lh := by
  rw [h.fetch_counted hp]
  omega

/-- The FBU's turn pops the byte at the front of IN in a FETCH below SIZE, and otherwise leaves IN and its count. -/
theorem fbuTurn_inStream_cases (s : State) :
    (s.fbu.phase = .fetch ∧ byteIndex s.fbu < payloadSize s.fbu.lw s.fbu.lh ∧
      s.inStream = (fbuTurn s).fbu.cb :: (fbuTurn s).inStream ∧ (fbuTurn s).fbu.incount = s.fbu.incount + 1) ∨
    ((fbuTurn s).inStream = s.inStream ∧ (fbuTurn s).fbu.incount = s.fbu.incount) := by
  obtain hstep | ⟨-, hsame⟩ := fbuTurn_cases s
  · obtain ⟨p, rest, hp, hb, hin, ht⟩ | ⟨-, -, ht⟩ | ⟨-, -, ht⟩ := fbuStep_cases hstep <;> rw [ht]
    · exact .inl ⟨hp, hb, hin, rfl⟩
    · exact .inr ⟨rfl, rfl⟩
    · exact .inr ⟨rfl, by simp⟩
  · exact .inr ⟨by rw [hsame], by rw [hsame]⟩

theorem eventState_incount_of_ne {e : Event} (hf : e ≠ .fbu) (s : State) :
    (eventState e s).fbu.incount = s.fbu.incount ∨ (eventState e s).fbu.incount = 0 := by
  by_cases hsame : (eventState e s).fbu.incount = s.fbu.incount
  · exact .inl hsame
  · obtain ⟨-, hzero⟩ | ⟨hfbu, -⟩ := (fbuChange_eventState e s).incount_writers hsame
    · exact .inr hzero
    · exact absurd hfbu hf

/-- Settles O30: by the event, which is an offer, the FBU's turn, or one that does not touch IN. -/
theorem inIsPoppedOnlyByFetchBelowSize : Obligations.InIsPoppedOnlyByFetchBelowSize := by
  intro s t hst
  obtain rfl := (step_next_iff s t).1 hst
  unfold stepState
  rw [← s.takeEvent_fbu, ← s.takeEvent_inStream]
  by_cases hf : s.nextEvent = .fbu
  · rw [hf]
    obtain ⟨hp, hb, hin, hcount⟩ | ⟨hin, hcount⟩ := fbuTurn_inStream_cases s.takeEvent
    · exact .inr (.inl ⟨rfl, hp, hb, hin, hcount, fun h => h.incount_lt_of_fetch hp hb⟩)
    · exact .inr (.inr ⟨nofun, hin, .inl hcount⟩)
  by_cases ho : ∃ b, s.nextEvent = .offer b
  · obtain ⟨b, hb⟩ := ho
    rw [hb]
    exact .inl ⟨b, rfl, rfl, rfl⟩
  · have hno (b : Byte) : s.nextEvent ≠ .offer b := fun hb => ho ⟨b, hb⟩
    exact .inr (.inr ⟨hno, eventState_inStream_of_ne hf hno _, eventState_incount_of_ne hf _⟩)

theorem JobInv.outcount_of_fetch {f : Fbu} (h : JobInv f) (hp : f.phase = .fetch)
    (hb : byteIndex f < payloadSize f.lw f.lh) : f.outcount.toNat = 8 * f.incount.toNat := by
  have hout := h.beats_counted (by simp [hp])
  rw [h.fetch_first_bit hp] at hout
  rw [hout, h.fetch_counted hp, Nat.min_eq_left hb.le]
  rfl

/-- Settles O32: IN changes at the FBU's turn only in FETCH, where no bit of the byte is out, and OUT changes only in
EMIT, where the byte has been popped. -/
theorem noByteIsPoppedAheadOfNeed : Obligations.NoByteIsPoppedAheadOfNeed := by
  intro s t h hst
  refine ⟨fun hin hf => ?_, fun hout => ?_⟩
  · obtain rfl := (step_next_iff s t).1 hst
    unfold stepState at hin ⊢
    rw [← s.takeEvent_fbu] at h ⊢
    rw [← s.takeEvent_inStream, hf] at hin
    rw [hf]
    obtain ⟨hp, hb, -, -⟩ | ⟨hsame, -⟩ := fbuTurn_inStream_cases s.takeEvent
    · obtain ⟨-, hcount⟩ := fbuTurn_of_not_delivers fun ⟨he, _⟩ => nomatch hp.symm.trans he
      exact ⟨h.outcount_of_fetch hp hb, hcount⟩
    · exact absurd hsame hin
  · obtain ⟨-, hp, -⟩ | ⟨-, hsame, -⟩ := outGrowsOnlyByEmit s t hst
    · have hbeats := h.beats_counted (by simp [hp])
      have hin := h.emit_counted hp
      omega
    · exact absurd hsame hout

end Sys2Proof.Machine
end

section
/-! The FBU in IDLE: only a write to GEOM or CMD or a reset touches it (70_reset_and_hazards.md section 3). -/

namespace Sys2Proof.Machine

/-- Settles O43: in IDLE the FBU's turn does nothing, and any other event that is no reset and carries no write to GEOM
or CMD leaves the FBU. -/
theorem idleRegistersAreStable : Obligations.IdleRegistersAreStable := by
  intro s t hp hst hr hg hc
  have hfbu : t.fbu = s.fbu := by
    obtain rfl := (step_next_iff s t).1 hst
    rw [← s.takeEvent_fbu] at hp ⊢
    by_cases hf : s.nextEvent = .fbu
    · rw [stepState, hf]
      exact (fbuTurn_fbu_eq_iff s.takeEvent).2 (.inl hp)
    · rw [stepState, eventState_fbu_of_access hf hr, hg, hc]
  exact ⟨hfbu, fun off => by rw [hfbu]⟩

end Sys2Proof.Machine
end

section
/-! GLYPH and MEASURE: the pattern of an operand is its two's complement, and the two lines write and latch it
(30_encoding.md section 6). -/

namespace Sys2Proof.Machine

theorem glyphOperandWf_iff (v : Int) : glyphOperandWf v = true ↔ -32768 ≤ v ∧ v ≤ 32767 := by
  simp [glyphOperandWf]

theorem toInt_pattern16 {v : Int} (h : glyphOperandWf v = true) : (pattern16 v).toInt = v := by
  obtain ⟨hlo, hhi⟩ := (glyphOperandWf_iff v).1 h
  rw [pattern16, BitVec.toInt_eq_toNat_cond, BitVec.toNat_ofNat]
  omega

theorem step_of_geom_write {s : State} {v : Word} {rest : List Event} (he : s.events = writeEvent .geom v :: rest) :
    step s = .next (((s.withEvents rest).respond .written).withFbu (s.fbu.writeGeom v)) :=
  step_of_write (off := 0x00) (by decide) (by decide) he

theorem step_of_measure {s : State} {rest : List Event} (hp : s.fbu.phase = .idle)
    (he : s.events = commandEvent (encode .measure) :: rest) :
    step s = .next (((s.withEvents rest).respond .written).withFbu (s.fbu.latch.setDone true)) := by
  rw [step_of_command he, exec_measure_of_idle (s := (s.withEvents rest).respond .written) hp]
  rfl

/-- Settles O46: the two lines are a GEOM write and a MEASURE, and each half of GEOM is the operand's pattern. -/
theorem glyphLineLatchesItsOperands : Obligations.GlyphLineLatchesItsOperands := by
  intro s rest w h hwf hp he
  obtain ⟨hw, hh⟩ : glyphOperandWf w = true ∧ glyphOperandWf h = true := by simpa [HostLine.wf] using hwf
  change s.events = writeEvent .geom (glyphWord w h) :: commandEvent (encode .measure) :: rest at he
  have hmeasure := step_of_measure (rest := rest)
    (s := ((s.withEvents (commandEvent (encode .measure) :: rest)).respond .written).withFbu
      (s.fbu.writeGeom (glyphWord w h))) hp rfl
  have hrun := (runSteps_succ_of_step (step_of_geom_write he) 1).trans (runSteps_succ_of_step hmeasure 0)
  refine ⟨_, hrun, rfl, ?_, ?_, rfl⟩
  · exact (congrArg BitVec.toInt (extractLsb'_low_half _ _)).trans (toInt_pattern16 hw)
  · exact (congrArg BitVec.toInt (extractLsb'_high_half _ _)).trans (toInt_pattern16 hh)

end Sys2Proof.Machine
end

section
/-! The command word as bytes and as a number of the opcode table (30_encoding.md R80, R81, 20_memory.md R54), and the
GEOM value of a record (20_memory.md R55). -/

namespace Sys2Proof.Machine

/-- Settles O1: the four words are the encodings of the commands, and the decoder computes the three neighbours. -/
theorem commandWordsDecodeAsTheOpcodeMap : Obligations.CommandWordsDecodeAsTheOpcodeMap :=
  ⟨decode_encode_eq .nop, decode_encode_eq .measure, decode_encode_eq .raster, decode_encode_eq .abort, rfl, rfl, rfl⟩

theorem wordOfLanes_byteLane (w : Word) :
    wordOfLanes (byteLane 0 w) (byteLane 1 w) (byteLane 2 w) (byteLane 3 w) = w := by
  simp only [wordOfLanes, byteLane]
  rw [BitVec.extractLsb'_append_extractLsb'_eq_extractLsb' (show 8 * 3 = 8 * 2 + 8 from rfl),
    BitVec.extractLsb'_append_extractLsb'_eq_extractLsb' (show 8 * 2 = 8 * 1 + 8 from rfl),
    BitVec.extractLsb'_append_extractLsb'_eq_extractLsb' (show 8 * 1 = 8 * 0 + 8 from rfl)]
  exact BitVec.extractLsb'_eq_self

theorem decodeBytes_lanes (w : Word) (rest : List Byte) :
    decodeBytes (byteLane 0 w :: byteLane 1 w :: byteLane 2 w :: byteLane 3 w :: rest) =
      (decode w).map fun i => (i, rest) := by
  rw [decodeBytes, wordOfLanes_byteLane]
  cases decode w <;> rfl

theorem tableWord_toNat (w : Word) : tableWord 32 w.toNat = w := by
  rw [tableWord, Nat.mod_eq_of_lt w.isLt, BitVec.ofNat_toNat, BitVec.setWidth_eq]

theorem decodeTableWord_toNat (w : Word) : decodeTableWord 32 w.toNat = (decode w).toOption := by
  rw [decodeTableWord, if_pos (Nat.mod_lt _ (by decide)), tableWord_toNat]
  simp only [decodeBytes_lanes]
  cases decode w <;> rfl

/-- Settles O2: the lanes of a word make the word again, and the word of a command decodes to it. -/
theorem encodedCommandDecodesToItself : Obligations.EncodedCommandDecodesToItself := by
  refine fun i rest => ⟨decode_encode_eq i, ?_, ?_⟩
  · exact (decodeBytes_lanes (encode i) rest).trans (by rw [decode_encode_eq]; rfl)
  · rw [decodeTableWord_toNat, decode_encode_eq]
    rfl

/-- The bytes of a record are two little-endian fields, the width first. -/
theorem recordGeom_eq (r0 r1 r2 r3 : Byte) :
    recordGeom r0 r1 r2 r3 = ((r3 ++ r2 : Half) ++ (r1 ++ r0 : Half) : Word) := BitVec.append_assoc

/-- Settles O44: the two halves of GEOM are the record's two fields. -/
theorem recordBytesGiveGeom : Obligations.RecordBytesGiveGeom :=
  fun r0 r1 r2 r3 => ⟨rfl, by rw [recordGeom_eq]; exact extractLsb'_low_half _ _,
    by rw [recordGeom_eq]; exact extractLsb'_high_half _ _⟩

end Sys2Proof.Machine
end

section
/-! Which event a step takes, and which accesses reach the window (20_memory.md R62, R67, 30_encoding.md R80). -/

namespace Sys2Proof.Machine

/-- Settles O4: the write to CMD runs `command`, which runs the decoded command. -/
theorem commandWriteRunsTheDecodedCommand : Obligations.CommandWriteRunsTheDecodedCommand := by
  intro s rest w i hd
  obtain rfl := eq_encode_of_decode hd
  refine ⟨fun he => step_of_command he, ?_⟩
  have hevents : (s.withFetchWord 32 (encode i).toNat).events = commandEvent (encode i) :: s.events := by
    rw [State.withFetchWord, tableWord_toNat, State.withEvents_events]
  exact step_of_command hevents

/-- Settles O13: with no event fixed, the next event is the free one. -/
theorem freeEventFollowsTheFixedOnes : Obligations.FreeEventFollowsTheFixedOnes := fun _ he => step_of_free he

theorem windowOffset_add {off : Nat} (h : off < 0x40) : windowOffset (Config.fbuBase + off) = some off := by
  rw [windowOffset, if_pos (by omega), Nat.add_sub_cancel_left]

theorem windowOffset_of_outside {addr : Nat} (h : addr < Config.fbuBase ∨ Config.fbuBase + 0x40 ≤ addr) :
    windowOffset addr = none := if_neg (by omega)

theorem busAccess_of_window {a : Access} {off : Nat} (h : windowOffset a.off = some off) (s : State) :
    busAccess a s = regAccess { a with off := off } s := by
  unfold busAccess
  rw [h]

theorem busAccess_of_outside {a : Access} (h : windowOffset a.off = none) (s : State) :
    busAccess a s = .next (s.respond (.notReached a.off)) := by
  unfold busAccess
  rw [h]

/-- Settles O20: an access in the window is the access at its offset, and one outside it is only answered. -/
theorem onlyTheWindowReachesTheFbu : Obligations.OnlyTheWindowReachesTheFbu := by
  refine ⟨Nat.mul_mod_right .., fun s rest a he => ⟨fun off hoff haddr => ?_, fun hout => ?_⟩⟩
  · rw [step_of_events he, step_of_events rfl]
    exact busAccess_of_window (haddr ▸ windowOffset_add hoff) _
  · rw [step_of_events he]
    exact busAccess_of_outside (windowOffset_of_outside hout) _

end Sys2Proof.Machine
end
